-- ==== Sys2Proof/Word.lean ====
section
/-! DEFINITION. The bit-vector types of the two blocks: 00_scope.md R7 fixes their widths. -/

namespace Sys2Proof

/-- One byte of either stream (20_memory.md R59). -/
abbrev Byte := BitVec 8

/-- A command word, `WORD_W` = 64 bits (00_scope.md R7, 30_encoding.md R70). -/
abbrev Word64 := BitVec 64

/-- The command code field, `CODE_W` = 8 bits (30_encoding.md R71, R72). -/
abbrev Code := BitVec 8

/-- The sub-index field, `SUB_W` = 4 bits (30_encoding.md R71, R73). -/
abbrev SubIx := BitVec 4

/-- The value field, `VALUE_W` = 52 bits (30_encoding.md R71, R74). -/
abbrev Value := BitVec 52

/-- An event count, 52 bits so that the value field carries it untruncated (10_state.md R24, R25). -/
abbrev Count := BitVec 52

/-- One sample, `SAMPLE_W` = 16 bits, read by the consumer as two's complement (20_memory.md R56). -/
abbrev Sample := BitVec 16

end Sys2Proof
end

