-- ==== Sys2Proof/Config.lean ====
section
/-! DEFINITION. The implementation parameters (00_scope.md R8) and the free values of the model.

The parameters are a record that `State` carries and no step writes (10_state.md R38), so that every
statement over all states holds for every choice of them. The two parameters that have no default are
opaque constants in the reset state (notes/assumptions/6.md). -/

namespace Sys2Proof

/-- A byte order: of a command word on the wire (20_memory.md R55), of a sample on the receive
stream (20_memory.md R56). -/
inductive ByteOrder
  | le
  | be
  deriving DecidableEq, Repr

/-- The order of the samples inside a sample region (30_encoding.md R76, R77; 90_conflicts.md C1). -/
inductive Layout
  | interleaved
  | planar
  deriving DecidableEq, Repr

/-- The numbers that stand for the members of the caller's two-element trigger domains
(41_commands.md R133 to R135). The source does not give them, and a model of the caller takes the
mapping as a parameter (91_not_in_source.md N9); the blocks never look at it. -/
structure TriggerNumbers where
  channel0 : Value
  channel1 : Value
  rising : Value
  falling : Value
  normal : Value
  automatic : Value
  deriving DecidableEq, Repr

/-- The parameters the source leaves open (00_scope.md R8; 91_not_in_source.md N9). -/
structure Params where
  /-- `PADDING_COUNT`: discarded sample-pairs after the sample region of every event. -/
  paddingCount : Nat
  /-- `MAXIMUM_SAMPLES`: the largest legal `totalSamples`. -/
  maximumSamples : Nat
  /-- `WIRE_ORDER`. -/
  wireOrder : ByteOrder
  /-- `SAMPLE_ORDER`. -/
  sampleOrder : ByteOrder
  /-- `LAYOUT`. -/
  layout : Layout
  /-- `VALUE_IN_W`: width of the signed value input port of the CWE. -/
  valueInW : Nat
  /-- `N_W`: width of the register `n`. -/
  nW : Nat
  /-- `POS_W`: width of the register `pos`. -/
  posW : Nat
  /-- `FNO_W`: width of the register `fno`. -/
  fnoW : Nat
  /-- The caller's mapping of the trigger domains to numbers. -/
  trigger : TriggerNumbers
  deriving DecidableEq, Repr

/-- The smallest `w` with `m < 2^w` (the form of the defaults of 00_scope.md R8). -/
def Config.widthFor (m : Nat) : Nat := if m = 0 then 0 else m.log2 + 1

/-- A number the spec leaves open, before it is brought into the legal range (92_eei_decisions.md D10). -/
opaque Config.freePadding : Nat

/-- A number the spec leaves open, before it is brought into the legal range (92_eei_decisions.md D11). -/
opaque Config.freeMaximum : Nat

/-- `PADDING_COUNT` of the reset state: any natural number below `2^52` (91_not_in_source.md N4). -/
def Config.paddingCount : Nat := Config.freePadding % 2 ^ 52

/-- `MAXIMUM_SAMPLES` of the reset state: any natural number that the constraint of
00_scope.md R9 allows beside `PADDING_COUNT` (91_not_in_source.md N5). -/
def Config.maximumSamples : Nat := Config.freeMaximum % (2 ^ 52 - Config.paddingCount)

/-- The six numbers of the caller's trigger domains, which the spec leaves open
(91_not_in_source.md N9). -/
opaque Config.freeTriggerNumber : Nat → Value

/-- The caller's mapping of the reset state; nothing can be proved of its numbers. -/
def Config.triggerNumbers : TriggerNumbers where
  channel0 := Config.freeTriggerNumber 0
  channel1 := Config.freeTriggerNumber 1
  rising := Config.freeTriggerNumber 2
  falling := Config.freeTriggerNumber 3
  normal := Config.freeTriggerNumber 4
  automatic := Config.freeTriggerNumber 5

/-- A parameter record with the defaults of 00_scope.md R8 around a choice of the two open numbers. -/
def Config.withDefaults (paddingCount maximumSamples : Nat) : Params where
  paddingCount := paddingCount
  maximumSamples := maximumSamples
  wireOrder := .le        -- PRESUMED by the spec (93_implementation_defined.md G1)
  sampleOrder := .le      -- PRESUMED by the spec (93_implementation_defined.md G2)
  layout := .interleaved  -- 90_conflicts.md C1
  valueInW := 64
  nW := Config.widthFor maximumSamples
  posW := Config.widthFor (4 * (maximumSamples + paddingCount) - 1)
  fnoW := 64
  trigger := Config.triggerNumbers

/-- The parameters of the reset state. -/
def Config.params : Params := Config.withDefaults Config.paddingCount Config.maximumSamples

/-- The free values a consumer reads in cells that no completion pulse covers
(93_implementation_defined.md U6); one for each count of `State.freeCtr`. -/
opaque Config.undefinedSample : Nat → Sample

/-- Whether the caller's own domain for a command code holds an operand, where the source names a
domain and does not list it, or a setter without a domain: codes 4, 21, 22, 25, 26
(91_not_in_source.md N7; 93_implementation_defined.md U19; 41_commands.md R145, R146). The operand is
the number the caller is given, before it is encoded (70_reset_and_hazards.md R267). -/
opaque Config.callerDomain : Code → Int → Bool

end Sys2Proof
end

