-- ==== Sys2Proof/Syntax.lean ====
section
/-! DEFINITION. The 32 command words of spec/opcode_table.json, one constructor a row
(30_encoding.md R83; 41_commands.md R120 to R151). A row's operands are the two fields of the word
beside its code: the sub-index and the 52-bit value (30_encoding.md R71, R73, R74). Both are typed by
their width, so no field can spill into its neighbour (40_encoder.md R102). -/

namespace Sys2Proof

/-- A command: what the code field selects, with its sub-index and its value field. -/
inductive Instr
  /-- `RST_HIST`, code 0: reset histogram (41_commands.md R120). -/
  | rstHist (sub : SubIx) (value : Value)
  /-- `RST_TIMER`, code 1: reset timer (41_commands.md R121). -/
  | rstTimer (sub : SubIx) (value : Value)
  /-- `RST_OSC`, code 2: reset oscilloscope (41_commands.md R122). -/
  | rstOsc (sub : SubIx) (value : Value)
  /-- `RST_GEN`, code 3: reset generator (41_commands.md R123). -/
  | rstGen (sub : SubIx) (value : Value)
  /-- `SET_RATE`, code 4: set sample rate (41_commands.md R124). -/
  | setRate (sub : SubIx) (value : Value)
  /-- `SET_NEG`, code 5: set negator mode (41_commands.md R125). -/
  | setNeg (sub : SubIx) (value : Value)
  /-- `SET_PHA_DELAY`, code 6: set PHA delay (41_commands.md R126). -/
  | setPhaDelay (sub : SubIx) (value : Value)
  /-- `SET_PHA_MIN`, code 7: set PHA threshold min (41_commands.md R127). -/
  | setPhaMin (sub : SubIx) (value : Value)
  /-- `SET_PHA_MAX`, code 8: set PHA threshold max (41_commands.md R128). -/
  | setPhaMax (sub : SubIx) (value : Value)
  /-- `SET_TIMER`, code 9: set timer (41_commands.md R129). -/
  | setTimer (sub : SubIx) (value : Value)
  /-- `SET_TIMER_MODE`, code 10: set timer mode (41_commands.md R130). -/
  | setTimerMode (sub : SubIx) (value : Value)
  /-- `RD_STATUS`, code 11: read status (41_commands.md R131). -/
  | rdStatus (sub : SubIx) (value : Value)
  /-- `RD_HIST`, code 12: read histogram (41_commands.md R132). -/
  | rdHist (sub : SubIx) (value : Value)
  /-- `SET_TRG_SRC`, code 13: set trigger source (41_commands.md R133). -/
  | setTrgSrc (sub : SubIx) (value : Value)
  /-- `SET_TRG_SLOPE`, code 14: set trigger slope (41_commands.md R134). -/
  | setTrgSlope (sub : SubIx) (value : Value)
  /-- `SET_TRG_MODE`, code 15: set trigger mode (41_commands.md R135). -/
  | setTrgMode (sub : SubIx) (value : Value)
  /-- `SET_TRG_LEVEL`, code 16: set trigger level (41_commands.md R136). -/
  | setTrgLevel (sub : SubIx) (value : Value)
  /-- `SET_PRE`, code 17: set samples-before-trigger (41_commands.md R137). -/
  | setPre (sub : SubIx) (value : Value)
  /-- `SET_TOT`, code 18: set total samples (41_commands.md R138). -/
  | setTot (sub : SubIx) (value : Value)
  /-- `START_OSC`, code 19: start oscilloscope (41_commands.md R139). -/
  | startOsc (sub : SubIx) (value : Value)
  /-- `RD_OSC`, code 20: read oscilloscope data (41_commands.md R140). -/
  | rdOsc (sub : SubIx) (value : Value)
  /-- `SET_FALL`, code 21: set fall time (41_commands.md R141). -/
  | setFall (sub : SubIx) (value : Value)
  /-- `SET_RISE`, code 22: set rise time (41_commands.md R142). -/
  | setRise (sub : SubIx) (value : Value)
  /-- `SET_LOWER`, code 23: set lower limit (41_commands.md R143). -/
  | setLower (sub : SubIx) (value : Value)
  /-- `SET_UPPER`, code 24: set upper limit (41_commands.md R144). -/
  | setUpper (sub : SubIx) (value : Value)
  /-- `SET_GEN_RATE`, code 25: set generator rate (41_commands.md R145). -/
  | setGenRate (sub : SubIx) (value : Value)
  /-- `SET_DIST`, code 26: set probability distribution (41_commands.md R146). -/
  | setDist (sub : SubIx) (value : Value)
  /-- `RST_SPEC`, code 27: reset spectrum (41_commands.md R147). -/
  | rstSpec (sub : SubIx) (value : Value)
  /-- `SET_BIN`, code 28: set one spectrum bin (41_commands.md R148). -/
  | setBin (sub : SubIx) (value : Value)
  /-- `START_GEN`, code 29: start generator (41_commands.md R149). -/
  | startGen (sub : SubIx) (value : Value)
  /-- `STOP_GEN`, code 30: stop generator (41_commands.md R150). -/
  | stopGen (sub : SubIx) (value : Value)
  /-- `START_ACQ`, code 31: start acquisition (returns amount events' worth of sample frames) (41_commands.md R151). -/
  | startAcq (sub : SubIx) (value : Value)
  deriving DecidableEq, Repr

end Sys2Proof
end

