-- ==== Sys2Proof/WellFormed.lean ====
section
/-! DEFINITION. What is well formed: a parameter record (00_scope.md R8, R9) and a command as a
well-behaved caller sends it (41_commands.md R157 and the caller side of R120 to R151).

The blocks assume neither: the encoder packs anything (40_encoder.md R102). A statement that needs a
legal parameter record or a well-behaved caller takes it as a premise. -/

namespace Sys2Proof

/-- `MAXIMUM_SAMPLES + PADDING_COUNT < 2^52`, so that command 18 is never truncated (00_scope.md R9). -/
def Params.sumFits (p : Params) : Bool := decide (p.maximumSamples + p.paddingCount < 2 ^ 52)

/-- The register `n` holds every legal `totalSamples` (00_scope.md R8, `N_W`). -/
def Params.nFits (p : Params) : Bool := decide (p.maximumSamples < 2 ^ p.nW)

/-- The register `pos` holds every offset in the longest frame (00_scope.md R8, `POS_W`). -/
def Params.posFits (p : Params) : Bool :=
  decide (4 * (p.maximumSamples + p.paddingCount) ≤ 2 ^ p.posW)

/-- The value input port is at least as wide as the value field (00_scope.md R8, `VALUE_IN_W`). -/
def Params.valueFits (p : Params) : Bool := decide (52 ≤ p.valueInW)

/-- A legal parameter record (00_scope.md R8, R9). -/
def Params.legal (p : Params) : Bool := p.sumFits && p.nFits && p.posFits && p.valueFits

/-- The two facts of the caller's mirror that decide whether a setter sends a word
(41_commands.md R137, R138, R152); `none` is the source's "unset". The mirror itself is out of scope
(00_scope.md R5(b)), so a caller-level operation brings them along. -/
structure CallerView where
  /-- The mirror's `totalSamples`. -/
  totalSamples : Option Nat
  /-- The mirror's `samplesBeforeTrigger`. -/
  preTrigger : Option Nat
  deriving DecidableEq, Repr

/-- `sub = 0`, the duty of every command but code 5 (41_commands.md R157). -/
def subZero (sub : SubIx) : Bool := sub == 0

/-- `sub = 0` and `V = 0`, for the commands whose rule names no parameter (41_commands.md R157). -/
def operandless (sub : SubIx) (value : Value) : Bool := subZero sub && value == 0

/-- Code 5 takes a channel, 0 or 1, in `sub` and 0 or 1 in the value (41_commands.md R125). -/
def negatorOk (sub : SubIx) (value : Value) : Bool :=
  decide (sub.toNat ≤ 1) && decide (value.toNat ≤ 1)

/-- The trigger level lies in `[-4096, 4095]`, read in two's complement (41_commands.md R136). -/
def levelOk (value : Value) : Bool := decide (-4096 ≤ value.toInt) && decide (value.toInt ≤ 4095)

/-- `samplesBeforeTrigger` lies in `[0, MAXIMUM_SAMPLES]` and does not exceed a set `totalSamples`
(41_commands.md R137, 70_reset_and_hazards.md R257). -/
def preTriggerOk (p : Params) (view : CallerView) (pre : Nat) : Bool :=
  decide (pre ≤ p.maximumSamples) &&
    match view.totalSamples with
    | none => true
    | some total => decide (pre ≤ total)

/-- `totalSamples` lies in `[0, MAXIMUM_SAMPLES]` and is not below a set `samplesBeforeTrigger`
(41_commands.md R138, R152). -/
def totalOk (p : Params) (view : CallerView) (total : Nat) : Bool :=
  decide (total ≤ p.maximumSamples) &&
    match view.preTrigger with
    | none => true
    | some pre => decide (pre ≤ total)

/-- The value of code 18 is `n + PADDING_COUNT` for a legal `n` (41_commands.md R138). -/
def totalValueOk (p : Params) (view : CallerView) (value : Value) : Bool :=
  decide (p.paddingCount ≤ value.toNat) && totalOk p view (value.toNat - p.paddingCount)

/-- A trigger source is the number of channel 0 or of channel 1 (41_commands.md R133). -/
def sourceOk (p : Params) (value : Value) : Bool :=
  value == p.trigger.channel0 || value == p.trigger.channel1

/-- A trigger slope is the number of rising or of falling (41_commands.md R134). -/
def slopeOk (p : Params) (value : Value) : Bool :=
  value == p.trigger.rising || value == p.trigger.falling

/-- A trigger mode is the number of normal or of auto (41_commands.md R135). -/
def modeOk (p : Params) (value : Value) : Bool :=
  value == p.trigger.normal || value == p.trigger.automatic

/-- The bin index in `value[51:32]` is at most 4095 (41_commands.md R148, 30_encoding.md R81). -/
def binOk (value : Value) : Bool := decide (value.toNat / 2 ^ 32 ≤ 4095)

/-- The value field holds a member of the caller's own domain for a command code, read unsigned or
signed (30_encoding.md R80). -/
def fieldOk (code : Code) (value : Value) : Bool :=
  Config.callerDomain code (value.toNat : Int) || Config.callerDomain code value.toInt

/-- A command as a well-behaved caller sends it (41_commands.md R157). Where the source names a
domain that it does not list, the domain is the opaque `Config.callerDomain`
(notes/assumptions/22.md). -/
def Instr.wellBehaved (p : Params) (view : CallerView) (i : Instr) : Bool :=
  match i with
  | .rstHist sub value => operandless sub value
  | .rstTimer sub value => operandless sub value
  | .rstOsc sub value => operandless sub value
  | .rstGen sub value => operandless sub value
  | .setRate sub value => subZero sub && fieldOk 4 value
  | .setNeg sub value => negatorOk sub value
  | .setPhaDelay sub _ => subZero sub
  | .setPhaMin sub _ => subZero sub
  | .setPhaMax sub _ => subZero sub
  | .setTimer sub _ => subZero sub
  | .setTimerMode sub _ => subZero sub
  | .rdStatus sub value => operandless sub value
  | .rdHist sub value => operandless sub value
  | .setTrgSrc sub value => subZero sub && sourceOk p value
  | .setTrgSlope sub value => subZero sub && slopeOk p value
  | .setTrgMode sub value => subZero sub && modeOk p value
  | .setTrgLevel sub value => subZero sub && levelOk value
  | .setPre sub value => subZero sub && preTriggerOk p view value.toNat
  | .setTot sub value => subZero sub && totalValueOk p view value
  | .startOsc sub value => operandless sub value
  | .rdOsc sub value => operandless sub value
  | .setFall sub value => subZero sub && fieldOk 21 value
  | .setRise sub value => subZero sub && fieldOk 22 value
  | .setLower sub _ => subZero sub
  | .setUpper sub _ => subZero sub
  | .setGenRate sub value => subZero sub && fieldOk 25 value
  | .setDist sub value => subZero sub && fieldOk 26 value
  | .rstSpec sub value => operandless sub value
  | .setBin sub value => subZero sub && binOk value
  | .startGen sub value => operandless sub value
  | .stopGen sub value => operandless sub value
  | .startAcq sub _ => subZero sub

end Sys2Proof
end

