-- ==== Sys2Proof/Decode.lean ====
section
/-! DEFINITION. The command word codec: packing (`CWE.ENCODE`, 40_encoder.md R101), serialising
(`CWE.SER` R108, `CWE.DESER` R109), splitting a word into its fields (`CWE.DECODE` R112, R113), the
decoder from bytes to `Instr` and, after it, the encoder. -/

namespace Sys2Proof

/-! ## CWE.ENCODE -/

/-- The operand reduced modulo `2^52`, two's complement for a negative one
(30_encoding.md R79, R80; 40_encoder.md R101). -/
def valueField (operand : Int) : Value := BitVec.ofInt 52 operand

/-- Three fields tile the word: code in 63:56, sub-index in 55:52, value in 51:0 (30_encoding.md R71). -/
def cwePack (code : Code) (sub : SubIx) (value : Value) : Word64 := code ++ sub ++ value

/-- `CWE.ENCODE code, sub, V` (40_encoder.md R101): no check of any field (R102), total, no state. -/
def cweEncode (code : Code) (sub : SubIx) (operand : Int) : Word64 :=
  cwePack code sub (valueField operand)

/-- The CWE at its ports: the value input has `width` bits and its bits 51:0 are used
(40_encoder.md R100, R103). -/
def cweEncodePort {width : Nat} (code : Code) (sub : SubIx) (valueI : BitVec width) : Word64 :=
  cwePack code sub (valueI.setWidth 52)

/-- A software call with unbounded `code` and `sub`: refused where a field would not fit
(40_encoder.md R102, 93_implementation_defined.md U17). -/
def cweEncodeCall (code sub : Nat) (operand : Int) : Option Word64 :=
  if code < 2 ^ 8 ∧ sub < 2 ^ 4 then
    some (cweEncode (BitVec.ofNat 8 code) (BitVec.ofNat 4 sub) operand)
  else none

/-! ## CWE.SER and CWE.DESER -/

/-- Byte `k` of a word counted from the least significant one: `w[8k+7:8k]` (40_encoder.md R108). -/
def wordByte (w : Word64) (k : Nat) : Byte := w.extractLsb' (8 * k) 8

/-- `CWE.SER w`: the 8 bytes of a command word, first on the wire first (40_encoder.md R108). -/
def serWord (order : ByteOrder) (w : Word64) : List Byte :=
  match order with
  | .le => [wordByte w 0, wordByte w 1, wordByte w 2, wordByte w 3,
            wordByte w 4, wordByte w 5, wordByte w 6, wordByte w 7]
  | .be => [wordByte w 7, wordByte w 6, wordByte w 5, wordByte w 4,
            wordByte w 3, wordByte w 2, wordByte w 1, wordByte w 0]

/-- The word whose bytes, least significant first, are the eight given. -/
def wordOfBytes (b0 b1 b2 b3 b4 b5 b6 b7 : Byte) : Word64 :=
  b7 ++ b6 ++ b5 ++ b4 ++ b3 ++ b2 ++ b1 ++ b0

/-- `CWE.DESER`: the inverse of `serWord`, on the first eight bytes of a sequence; it answers the
bytes that follow, since a receiver cuts the stream every 8 bytes (40_encoder.md R109, 30_encoding.md R88). -/
def deserWord (order : ByteOrder) (bytes : List Byte) : Option (Word64 × List Byte) :=
  match bytes with
  | a :: b :: c :: d :: e :: f :: g :: h :: rest =>
    match order with
    | .le => some (wordOfBytes a b c d e f g h, rest)
    | .be => some (wordOfBytes h g f e d c b a, rest)
  | _ => none

/-! ## CWE.DECODE -/

/-- The three fields of a word (40_encoder.md R112). -/
structure CweFields where
  /-- `w[63:56]` -/
  code : Code
  /-- `w[55:52]` -/
  sub : SubIx
  /-- `w[51:0]` -/
  value : Value
  deriving DecidableEq, Repr

/-- `CWE.DECODE w`, total on 64-bit words (40_encoder.md R112). -/
def cweDecode (w : Word64) : CweFields where
  code := w.extractLsb' 56 8
  sub := w.extractLsb' 52 4
  value := w.extractLsb' 0 52

/-- The signed view `sv = signed_52(value52)` of a word's value field (40_encoder.md R112, R106). -/
def signedValue (w : Word64) : Int := (cweDecode w).value.toInt

/-- The classes of a checker (40_encoder.md R113). -/
inductive WordClass
  | assigned (code : Code)
  | unassigned
  deriving DecidableEq, Repr

/-- `class(w)`: codes 0 to 31 are assigned (40_encoder.md R113, 30_encoding.md R83, R84). -/
def wordClass (w : Word64) : WordClass :=
  if (cweDecode w).code.toNat ≤ 31 then .assigned (cweDecode w).code else .unassigned

/-! ## The decoder -/

/-- Why a sequence of bytes is no command of the table. -/
inductive DecodeRefusal
  /-- The word's code is one of the 224 unassigned ones (30_encoding.md R84). -/
  | unassignedCode (code : Code)
  /-- Fewer than eight bytes are there (30_encoding.md R70). -/
  | shortWord
  deriving DecidableEq, Repr

/-- The opcode map on the three fields (30_encoding.md R83). -/
def decodeFields (f : CweFields) : Except DecodeRefusal Instr :=
  match f.code.toNat with
  | 0 => .ok (.rstHist f.sub f.value)
  | 1 => .ok (.rstTimer f.sub f.value)
  | 2 => .ok (.rstOsc f.sub f.value)
  | 3 => .ok (.rstGen f.sub f.value)
  | 4 => .ok (.setRate f.sub f.value)
  | 5 => .ok (.setNeg f.sub f.value)
  | 6 => .ok (.setPhaDelay f.sub f.value)
  | 7 => .ok (.setPhaMin f.sub f.value)
  | 8 => .ok (.setPhaMax f.sub f.value)
  | 9 => .ok (.setTimer f.sub f.value)
  | 10 => .ok (.setTimerMode f.sub f.value)
  | 11 => .ok (.rdStatus f.sub f.value)
  | 12 => .ok (.rdHist f.sub f.value)
  | 13 => .ok (.setTrgSrc f.sub f.value)
  | 14 => .ok (.setTrgSlope f.sub f.value)
  | 15 => .ok (.setTrgMode f.sub f.value)
  | 16 => .ok (.setTrgLevel f.sub f.value)
  | 17 => .ok (.setPre f.sub f.value)
  | 18 => .ok (.setTot f.sub f.value)
  | 19 => .ok (.startOsc f.sub f.value)
  | 20 => .ok (.rdOsc f.sub f.value)
  | 21 => .ok (.setFall f.sub f.value)
  | 22 => .ok (.setRise f.sub f.value)
  | 23 => .ok (.setLower f.sub f.value)
  | 24 => .ok (.setUpper f.sub f.value)
  | 25 => .ok (.setGenRate f.sub f.value)
  | 26 => .ok (.setDist f.sub f.value)
  | 27 => .ok (.rstSpec f.sub f.value)
  | 28 => .ok (.setBin f.sub f.value)
  | 29 => .ok (.startGen f.sub f.value)
  | 30 => .ok (.stopGen f.sub f.value)
  | 31 => .ok (.startAcq f.sub f.value)
  | _ => .error (.unassignedCode f.code)

/-- The command a 64-bit word stands for, or its refusal by name. -/
def decodeWord (w : Word64) : Except DecodeRefusal Instr := decodeFields (cweDecode w)

/-- The command at the head of a byte sequence in a wire order, and the bytes after it. Total:
every sequence is a command with its rest, or refused by name. -/
def decodeBytes (order : ByteOrder) (bytes : List Byte) :
    Except DecodeRefusal (Instr × List Byte) :=
  match deserWord order bytes with
  | none => .error .shortWord
  | some (w, rest) =>
    match decodeWord w with
    | .ok i => .ok (i, rest)
    | .error r => .error r

/-- What the decoder reads from an instruction whose bits are `w`, bit 0 the least significant:
the eight bytes are laid out in the default wire order (20_memory.md R55) and given to `decodeBytes`. -/
def decodeTableWord (nbits w : Nat) : Option Instr :=
  let bits := w % 2 ^ nbits
  if bits < 2 ^ 64 then
    match decodeBytes .le (serWord .le (BitVec.ofNat 64 bits)) with
    | .ok (i, []) => some i
    | _ => none
  else none

/-! ## The encoder -/

/-- The code of a command (30_encoding.md R83). -/
def Instr.code (i : Instr) : Code :=
  match i with
  | .rstHist _ _ => 0
  | .rstTimer _ _ => 1
  | .rstOsc _ _ => 2
  | .rstGen _ _ => 3
  | .setRate _ _ => 4
  | .setNeg _ _ => 5
  | .setPhaDelay _ _ => 6
  | .setPhaMin _ _ => 7
  | .setPhaMax _ _ => 8
  | .setTimer _ _ => 9
  | .setTimerMode _ _ => 10
  | .rdStatus _ _ => 11
  | .rdHist _ _ => 12
  | .setTrgSrc _ _ => 13
  | .setTrgSlope _ _ => 14
  | .setTrgMode _ _ => 15
  | .setTrgLevel _ _ => 16
  | .setPre _ _ => 17
  | .setTot _ _ => 18
  | .startOsc _ _ => 19
  | .rdOsc _ _ => 20
  | .setFall _ _ => 21
  | .setRise _ _ => 22
  | .setLower _ _ => 23
  | .setUpper _ _ => 24
  | .setGenRate _ _ => 25
  | .setDist _ _ => 26
  | .rstSpec _ _ => 27
  | .setBin _ _ => 28
  | .startGen _ _ => 29
  | .stopGen _ _ => 30
  | .startAcq _ _ => 31

/-- The sub-index of a command (30_encoding.md R73). -/
def Instr.sub (i : Instr) : SubIx :=
  match i with
  | .rstHist sub _ => sub
  | .rstTimer sub _ => sub
  | .rstOsc sub _ => sub
  | .rstGen sub _ => sub
  | .setRate sub _ => sub
  | .setNeg sub _ => sub
  | .setPhaDelay sub _ => sub
  | .setPhaMin sub _ => sub
  | .setPhaMax sub _ => sub
  | .setTimer sub _ => sub
  | .setTimerMode sub _ => sub
  | .rdStatus sub _ => sub
  | .rdHist sub _ => sub
  | .setTrgSrc sub _ => sub
  | .setTrgSlope sub _ => sub
  | .setTrgMode sub _ => sub
  | .setTrgLevel sub _ => sub
  | .setPre sub _ => sub
  | .setTot sub _ => sub
  | .startOsc sub _ => sub
  | .rdOsc sub _ => sub
  | .setFall sub _ => sub
  | .setRise sub _ => sub
  | .setLower sub _ => sub
  | .setUpper sub _ => sub
  | .setGenRate sub _ => sub
  | .setDist sub _ => sub
  | .rstSpec sub _ => sub
  | .setBin sub _ => sub
  | .startGen sub _ => sub
  | .stopGen sub _ => sub
  | .startAcq sub _ => sub

/-- The value field of a command (30_encoding.md R74). -/
def Instr.value (i : Instr) : Value :=
  match i with
  | .rstHist _ value => value
  | .rstTimer _ value => value
  | .rstOsc _ value => value
  | .rstGen _ value => value
  | .setRate _ value => value
  | .setNeg _ value => value
  | .setPhaDelay _ value => value
  | .setPhaMin _ value => value
  | .setPhaMax _ value => value
  | .setTimer _ value => value
  | .setTimerMode _ value => value
  | .rdStatus _ value => value
  | .rdHist _ value => value
  | .setTrgSrc _ value => value
  | .setTrgSlope _ value => value
  | .setTrgMode _ value => value
  | .setTrgLevel _ value => value
  | .setPre _ value => value
  | .setTot _ value => value
  | .startOsc _ value => value
  | .rdOsc _ value => value
  | .setFall _ value => value
  | .setRise _ value => value
  | .setLower _ value => value
  | .setUpper _ value => value
  | .setGenRate _ value => value
  | .setDist _ value => value
  | .rstSpec _ value => value
  | .setBin _ value => value
  | .startGen _ value => value
  | .stopGen _ value => value
  | .startAcq _ value => value

/-- The word of a command (30_encoding.md R71, R83). -/
def encode (i : Instr) : Word64 := cwePack i.code i.sub i.value

/-- The eight bytes of a command on the wire (40_encoder.md R108). -/
def encodeBytes (order : ByteOrder) (i : Instr) : List Byte := serWord order (encode i)

end Sys2Proof
end

