-- ==== Sys2Proof/Machine/State.lean ====
section
/-! DEFINITION. The state of the machine as plain data: the eleven registers of the frame parser
(10_state.md R21), the environment the rules refer to (10_state.md R42), the read-only parameters
(10_state.md R38), the outputs of the latest step (10_state.md R34), and the model's own fields that
hold what the other agents will do (notes/assumptions/1.md to 3.md). The encoder has no state
(10_state.md R20). -/

namespace Sys2Proof.Machine

/-! ## Registers -/

/-- The values of `st` (10_state.md R29). -/
inductive SeqState
  /-- No acquisition in progress. -/
  | idle
  /-- A start command waits to be handed to the transmit stream. -/
  | cmd
  /-- A frame is being received. -/
  | rx
  /-- Continuous mode, between two frames. -/
  | wait
  /-- Terminal: only `RESET` leaves it. -/
  | halt
  deriving DecidableEq, Repr

/-- The values of `mode` (10_state.md R37). -/
inductive Mode
  | bulk
  | cont
  deriving DecidableEq, Repr

/-- The values of `cause` (10_state.md R33, 60_exceptions.md R223). -/
inductive Cause
  | none
  /-- A connection error on the receive side. -/
  | ioRx
  /-- A connection error on the transmit side. -/
  | ioTx
  /-- The consumer closed the session. -/
  | closed
  deriving DecidableEq, Repr

/-- The reject codes (60_exceptions.md R222). -/
inductive RejCode
  /-- No reject: the value of `rej_code` while `rej` is low. -/
  | eNone
  | eBusy
  | eUnconfigured
  | eRange
  | eEmptyFrame
  | eZeroBurst
  | eNotWaiting
  | eHalted
  deriving DecidableEq, Repr

/-- The error classes a caller sees (60_exceptions.md R220). -/
inductive CallerError
  | invalidArgument
  | connectionError
  | notImplemented
  deriving DecidableEq, Repr

/-! ## Memory -/

/-- The destination sample memory `OUT` (20_memory.md R52), held as bytes: cell `a` of 16 bits is the
bytes `2a` and `2a+1` (notes/assumptions/10.md). An unlisted byte has no value (notes/assumptions/11.md). -/
abbrev Memory := List Host.Cell

/-! ## Outputs -/

/-- The payload of the sample write port `s_we` (20_memory.md R52, 42_frame_parser.md R170). -/
structure SampleWrite where
  /-- `s_fno` -/
  fno : Nat
  /-- `s_ch` -/
  ch : Nat
  /-- `s_idx` -/
  idx : Nat
  /-- `s_data` -/
  data : Sample
  deriving DecidableEq, Repr

/-- The pulses and payloads of one step (10_state.md R34). They are the outputs of the step that led
to a state, no state of the hardware; the level outputs are functions in Machine/Flags.lean
(notes/assumptions/15.md). -/
structure Outputs where
  /-- `evt_done`: the step completed a frame. -/
  evtDone : Bool := false
  /-- `frame_done`, with the number of the frame that is now whole in `OUT`. -/
  frameDone : Option Nat := none
  /-- `batch_done`: the step completed a bulk batch. -/
  batchDone : Bool := false
  /-- `rej_code`; `rej` is high exactly when it is not `E_NONE`. -/
  rejCode : RejCode := .eNone
  /-- `s_we` with its payload. -/
  sample : Option SampleWrite := none
  /-- `word_o` while `out_valid` is high (40_encoder.md R100). -/
  word : Option Word64 := none
  /-- `tx_word` of a transfer to the transmit stream (20_memory.md R50, R51). -/
  txWord : Option Word64 := none
  /-- What a consumer's `MemRead` returned (20_memory.md R52). -/
  readData : Option Sample := none
  /-- The error reported to the caller of a pseudo-operation (60_exceptions.md R220). -/
  callerError : Option CallerError := none
  deriving DecidableEq, Repr

/-! ## What the other agents do -/

/-- The member of a two-element domain a caller names (41_commands.md R133). -/
inductive TriggerSource
  | channel0
  | channel1
  deriving DecidableEq, Repr

/-- The member of a two-element domain a caller names (41_commands.md R134). -/
inductive TriggerSlope
  | rising
  | falling
  deriving DecidableEq, Repr

/-- The member of a two-element domain a caller names (41_commands.md R135). -/
inductive TriggerMode
  | normal
  | automatic
  deriving DecidableEq, Repr

/-- A call of the caller for one command, with its input as the caller gives it: not yet checked and
not yet reduced to the value field (41_commands.md R159, 70_reset_and_hazards.md R267). A trigger
member `none` stands for any input outside the two-element domain. Codes 18, 28 and 31 have no call of
their own: they are sent by `SET_TOTAL_SAMPLES`, `SET_SPECTRUM` and the parser only (41_commands.md
R148, R151, R152). -/
inductive CallerCommand
  | rstHist
  | rstTimer
  | rstOsc
  | rstGen
  | setRate (v : Int)
  | setNeg (channel v : Int)
  | setPhaDelay (v : Int)
  | setPhaMin (v : Int)
  | setPhaMax (v : Int)
  | setTimer (v : Int)
  | setTimerMode (v : Int)
  | rdStatus
  | rdHist
  | setTrgSrc (m : Option TriggerSource)
  | setTrgSlope (m : Option TriggerSlope)
  | setTrgMode (m : Option TriggerMode)
  | setTrgLevel (v : Int)
  | setPre (n : Int)
  | startOsc
  | rdOsc
  | setFall (v : Int)
  | setRise (v : Int)
  | setLower (v : Int)
  | setUpper (v : Int)
  | setGenRate (v : Int)
  | setDist (v : Int)
  | rstSpec
  | startGen
  | stopGen
  deriving DecidableEq, Repr

/-- An operation of the host: an AFP port operation, a command, a read by the consumer, or a
caller-level pseudo-operation (00_scope.md R11, 30_encoding.md R90, R91). -/
inductive HostOp
  /-- `CWE.SEND code, sub, V` (40_encoder.md R110). -/
  | send (code : Code) (sub : SubIx) (operand : Int)
  /-- `CWE.ENCODE code, sub, V`: an evaluation of the encoder alone (40_encoder.md R101). -/
  | encode (code : Code) (sub : SubIx) (operand : Int)
  /-- `AFP.CFG v` (42_frame_parser.md R173). -/
  | cfg (v : Nat)
  /-- `AFP.START_BULK a` (42_frame_parser.md R174). -/
  | startBulk (a : Count)
  /-- `AFP.START_CONT a` (42_frame_parser.md R175). -/
  | startCont (a : Count)
  /-- `AFP.PULL` (42_frame_parser.md R177). -/
  | pull
  /-- `AFP.CANCEL` (42_frame_parser.md R189). -/
  | cancel
  /-- The consumer's read of `OUT[f][c][s]` (20_memory.md R52, R53). -/
  | read (f c s : Nat)
  /-- The caller waits for `batch_done` (41_commands.md R154). -/
  | awaitBatch
  /-- The caller waits for `frame_done` (41_commands.md R155). -/
  | awaitFrame
  /-- A setter of the caller for one command (41_commands.md R159). -/
  | setter (view : CallerView) (c : CallerCommand)
  /-- `SET_TOTAL_SAMPLES n` (41_commands.md R152). -/
  | setTotalSamples (view : CallerView) (n : Int)
  /-- `SET_SPECTRUM weights` (41_commands.md R153). -/
  | setSpectrum (weights : List Int)
  /-- `ACQUIRE_BATCH count` (41_commands.md R154). -/
  | acquireBatch (count : Count)
  /-- `STREAM_EVENTS burst`, of which the consumer wants `frames` frames (41_commands.md R155). -/
  | streamEvents (burst : Count) (frames : Nat)
  /-- `SET_SPECTRUM_GENERIC` (41_commands.md R156). -/
  | setSpectrumGeneric
  deriving DecidableEq, Repr

/-- The inputs of both blocks in one cycle of a clocked realisation (40_encoder.md R100,
42_frame_parser.md R170). The receive stream has one source: `rx_data` is the first byte the session
holds, `State.rxq` (20_memory.md R65(b); notes/assumptions/20.md). -/
structure PortInputs where
  rst : Bool := false
  cancel : Bool := false
  rxErr : Bool := false
  txErr : Bool := false
  /-- `rx_valid`: the receive stream offers the first byte the session holds, if it holds one. -/
  rxValid : Bool := false
  /-- `tx_ready`, which is also `cmd_ready`. -/
  txReady : Bool := false
  /-- `in_valid`: a host command is offered. -/
  inValid : Bool := false
  cmdI : Code := 0
  subI : SubIx := 0
  /-- `value_i`, of which the port has the low `VALUE_IN_W` bits. -/
  valueI : Nat := 0
  cfgWe : Bool := false
  cfgN : Nat := 0
  startWe : Bool := false
  startMode : Mode := .bulk
  startAmount : Count := 0
  pull : Bool := false
  deriving DecidableEq, Repr

/-- A turn: which agent tries a step, and with what (00_scope.md R10, R11; notes/assumptions/1.md). -/
inductive Turn
  /-- The host takes its next pending operation. -/
  | host
  /-- The sequencer takes `AFP.ISSUE`; the transmit stream is ready. -/
  | sequencer
  /-- Bytes of the device's choice reach the session (20_memory.md R54). -/
  | arrive (bytes : List Byte)
  /-- The device delivers the first byte the session holds. -/
  | device
  /-- The session raises `rx_err`. -/
  | rxErr
  /-- The session raises `tx_err`. -/
  | txErr
  /-- `rst` is sampled high. -/
  | rst
  /-- A host operation at its port, beside the pending ones. -/
  | strobe (op : HostOp)
  /-- `tx_err` in a clock cycle in which a host command is or is not offered. -/
  | txErrPort (offered : Bool)
  /-- The stream transfer a clock cycle's inputs allow. -/
  | transfer (ports : PortInputs)
  /-- A clock cycle with several inputs active (60_exceptions.md R228). -/
  | clock (ports : PortInputs)
  deriving DecidableEq, Repr

/-! ## The state -/

/-- The whole state. -/
structure State where
  /-- `st` (10_state.md R29). -/
  st : SeqState
  /-- `pos`, `POS_W` bits (10_state.md R30). -/
  pos : Nat
  /-- `n_valid` (10_state.md R31). -/
  nValid : Bool
  /-- `n`, `N_W` bits (10_state.md R35). -/
  n : Nat
  /-- `mode` (10_state.md R37). -/
  mode : Mode
  /-- `amount` (10_state.md R24). -/
  amount : Count
  /-- `evt` (10_state.md R25). -/
  evt : Count
  /-- `fno`, `FNO_W` bits (10_state.md R26, R46). -/
  fno : Nat
  /-- `hold` (10_state.md R23). -/
  hold : Byte
  /-- `batch_ok` (10_state.md R32). -/
  batchOk : Bool
  /-- `cause` (10_state.md R33). -/
  cause : Cause
  /-- `TX`: the command words of this session, oldest first (10_state.md R42(a), 20_memory.md R51). -/
  tx : List Word64
  /-- `OUT` (10_state.md R42(c), 20_memory.md R52). -/
  mem : Memory
  /-- The parameters, written by no step (10_state.md R38). -/
  cfg : Params
  /-- The pulses and payloads of the latest step (10_state.md R34). -/
  out : Outputs
  /-- The model's own: the turns to come (notes/assumptions/1.md). -/
  sched : List Turn
  /-- The model's own: the host's pending operations (notes/assumptions/3.md). -/
  host : List HostOp
  /-- The model's own: what is left of the caller-level operation in progress
  (notes/assumptions/32.md). -/
  call : List HostOp
  /-- `RXQ`: the bytes the session holds and the parser has not taken (10_state.md R42(b);
  notes/assumptions/2.md). -/
  rxq : List Byte
  /-- The model's own: frames completed since the last accepted start, without the modulus of `fno`
  (10_state.md R46; notes/assumptions/13.md). -/
  frames : Nat
  /-- The model's own: how many free values have been read (notes/assumptions/12.md). -/
  freeCtr : Nat
  deriving DecidableEq, Repr

/-- A model instance right after reset (10_state.md R45, 70_reset_and_hazards.md R250): every register
at the value the spec states, `TX` empty, nothing written in `OUT`, no agent with anything to do. -/
def State.resetWith (p : Params) : State where
  st := .idle
  pos := 0
  nValid := false
  n := 0
  mode := .bulk
  amount := 0
  evt := 0
  fno := 0
  hold := 0
  batchOk := false
  cause := .none
  tx := []
  mem := []
  cfg := p
  out := { evtDone := false }
  sched := []
  host := []
  call := []
  rxq := []
  frames := 0
  freeCtr := 0

/-- The machine right after reset, for parameters the spec leaves open (notes/assumptions/6.md). -/
def State.reset : State := State.resetWith Config.params

/-! ## Reasons to stop -/

/-- Why a step can fault. No command and no operation of the blocks does. -/
inductive Fault
  /-- Raised by the consumer's read of an index triple `(f, c, s)` with `c > 1` or `s >= n`: the array
  has no such cell (20_memory.md R52, R53). Safe: the model stops where the spec gives no meaning. -/
  | noSuchCell
  deriving DecidableEq, Repr

/-- Why the model can refuse. -/
inductive Refusal
  /-- An instruction without a meaning. Raised by no arm of `exec`. Safe: nothing is claimed of it. -/
  | notModelled (mnemonic : String)
  /-- A parameter record that breaks 00_scope.md R8 or R9, refused when the block is instantiated
  (`instantiate` in Machine/Ops.lean), never by a step. Safe: the spec refuses such an instance. -/
  | illegalParameters
  deriving DecidableEq, Repr

end Sys2Proof.Machine
end

