-- ==== Sys2Proof/Machine/Operands.lean ====
section
/-! DEFINITION. How operands, lengths, places and addresses are computed: composite operands of
commands (30_encoding.md R81, R82), derived lengths (10_state.md R36), the place of a byte in a frame
and of a sample in `OUT` (42_frame_parser.md R171), the assembly of a sample (20_memory.md R56). -/

namespace Sys2Proof.Machine

/-! ## Composite operands -/

/-- The operand of command 28: `(index << 32) | weight`, an addition where the two have no set bit in
common, and the integer sum for a weight outside `[0, 2^32)`, which then changes the index bits
(30_encoding.md R81, 70_reset_and_hazards.md R267; notes/assumptions/23.md). -/
def binOperand (index : Nat) (weight : Int) : Int := (index : Int) * 2 ^ 32 + weight

/-- A weight the packing is exact for (30_encoding.md R81). -/
def weightOk (weight : Int) : Bool := decide (0 ≤ weight) && decide (weight < 2 ^ 32)

/-- The operand of command 18: `n + PADDING_COUNT` (30_encoding.md R82, 41_commands.md R138). -/
def totalOperand (p : Params) (n : Nat) : Int := ((n + p.paddingCount : Nat) : Int)

/-- What the value port carries: `value_i[51:0]` of the `VALUE_IN_W` bits (40_encoder.md R100, R103). -/
def portValue (p : Params) (ports : PortInputs) : Value :=
  (BitVec.ofNat p.valueInW ports.valueI).setWidth 52

/-- `word_o` for the inputs of a cycle (40_encoder.md R100, R103). -/
def portWord (p : Params) (ports : PortInputs) : Word64 :=
  cweEncodePort ports.cmdI ports.subI (BitVec.ofNat p.valueInW ports.valueI)

/-! ## Lengths -/

/-- `sbytes = 4*n` (10_state.md R36). -/
def State.sbytes (s : State) : Nat := 4 * s.n

/-- `pbytes = 4*PADDING_COUNT` (10_state.md R36). -/
def State.pbytes (s : State) : Nat := 4 * s.cfg.paddingCount

/-- `fbytes = sbytes + pbytes` (10_state.md R36). -/
def State.fbytes (s : State) : Nat := s.sbytes + s.pbytes

/-- `in_sample(p)`: the byte at offset `p` belongs to the sample region (42_frame_parser.md R171, R180). -/
def State.inSample (s : State) (p : Nat) : Bool := decide (p < s.sbytes)

/-! ## Places -/

/-- `loc(p)`: channel and sample index of the byte at offset `p` of the sample region
(42_frame_parser.md R171, R181; 30_encoding.md R76, R77). -/
def loc (layout : Layout) (n p : Nat) : Nat × Nat :=
  match layout with
  | .interleaved => ((p / 2) % 2, (p / 2) / 2)
  | .planar => ((p / 2) / n, (p / 2) % n)

/-- `off(c, s)`: offset of the first byte of a sample (42_frame_parser.md R171). -/
def off (layout : Layout) (n c s : Nat) : Nat :=
  match layout with
  | .interleaved => 4 * s + 2 * c
  | .planar => 2 * (c * n + s)

/-- `addr(f, c, s) = (f*2 + c)*n + s`, in cells (20_memory.md R53). -/
def cellAddr (n f c s : Nat) : Nat := (f * 2 + c) * n + s

/-! ## Samples -/

/-- `asm(b0, b1)`, `b0` received first (42_frame_parser.md R171, 20_memory.md R56). -/
def asmSample (order : ByteOrder) (b0 b1 : Byte) : Sample :=
  match order with
  | .le => b1 ++ b0
  | .be => b0 ++ b1

/-- The number a consumer reads in a cell: `signed_16(v)` (20_memory.md R56, 42_frame_parser.md R183). -/
def sampleValue (v : Sample) : Int := v.toInt

end Sys2Proof.Machine
end

