-- ==== Sys2Proof/Machine/Flags.lean ====
section
/-! DEFINITION. Flags and status outputs. The level outputs are functions of the state
(10_state.md R34, 42_frame_parser.md R170); the numeric codes are those of 10_state.md R29, R33, R37
and 60_exceptions.md R222. There are no condition codes, no carry and no overflow (10_state.md R34). -/

namespace Sys2Proof.Machine

/-! ## Numeric codes, visible on a debug output only -/

/-- The code of a sequencer state (10_state.md R29). -/
def seqCode (st : SeqState) : BitVec 3 :=
  match st with
  | .idle => 0
  | .cmd => 1
  | .rx => 2
  | .wait => 3
  | .halt => 4

/-- The code of a mode (10_state.md R37). -/
def modeCode (m : Mode) : BitVec 1 :=
  match m with
  | .bulk => 0
  | .cont => 1

/-- The code of a halt cause (10_state.md R33). -/
def causeCode (c : Cause) : BitVec 2 :=
  match c with
  | .none => 0
  | .ioRx => 1
  | .ioTx => 2
  | .closed => 3

/-- The reject code on `rej_code` (60_exceptions.md R222). -/
def rejectNumber (r : RejCode) : BitVec 3 :=
  match r with
  | .eNone => 0
  | .eBusy => 1
  | .eUnconfigured => 2
  | .eRange => 3
  | .eEmptyFrame => 4
  | .eZeroBurst => 5
  | .eNotWaiting => 6
  | .eHalted => 7

/-! ## Level outputs -/

/-- `busy`: `st` is `CMD`, `RX` or `WAIT` (10_state.md R34). -/
def State.busy (s : State) : Bool := s.st == .cmd || s.st == .rx || s.st == .wait

/-- `halted` (10_state.md R34). -/
def State.halted (s : State) : Bool := s.st == .halt

/-- `cause_o` (10_state.md R34). -/
def State.causeO (s : State) : BitVec 2 := causeCode s.cause

/-- `rx_ready`: inbound bytes are taken in `RX` only (10_state.md R34, 20_memory.md R50). -/
def State.rxReady (s : State) : Bool := s.st == .rx

/-- `cmd_valid`: a start command is offered to the transmit path (10_state.md R34). -/
def State.cmdValid (s : State) : Bool := s.st == .cmd

/-- `cmd_code`, the code of the start command (42_frame_parser.md R170, 00_scope.md R7 `START_CODE`). -/
def startCode : Code := 31

/-- `cmd_sub` of the start command (42_frame_parser.md R170). -/
def startSub : SubIx := 0

/-- `cmd_value` of the start command (42_frame_parser.md R170, R176). -/
def State.cmdValue (s : State) : Value := s.amount

/-- `host_cmd_ready`: a host command may pass (10_state.md R34). -/
def State.hostCmdReady (s : State) : Bool := s.st == .idle

/-- `waiting`: a pull is expected (10_state.md R34). -/
def State.waiting (s : State) : Bool := s.st == .wait

/-- `batch_ok_o` (10_state.md R34). -/
def State.batchOkO (s : State) : Bool := s.batchOk

/-- `rej`: the latest step was a rejected host operation (10_state.md R34). -/
def State.rej (s : State) : Bool := s.out.rejCode != .eNone

/-- `rej_code` (10_state.md R34, 60_exceptions.md R222). -/
def State.rejCodeO (s : State) : BitVec 3 := rejectNumber s.out.rejCode

/-- `out_valid`: the encoder's inputs were valid in the latest step, and `word_o` shows its word
(40_encoder.md R100). -/
def State.outValid (s : State) : Bool := s.out.word.isSome

/-- `s_we`: the latest step wrote one sample to `OUT` (10_state.md R34, 20_memory.md R52). -/
def State.sWe (s : State) : Bool := s.out.sample.isSome

/-! ## Why a start is rejected -/

/-- The first reason to reject `AFP.START_BULK`, which `AFP.START_CONT` shares
(42_frame_parser.md R174, R175; the order is 60_exceptions.md R229). -/
def startReject (s : State) : RejCode :=
  match s.st with
  | .halt => .eHalted
  | .cmd => .eBusy
  | .rx => .eBusy
  | .wait => .eBusy
  | .idle =>
    if s.nValid = false then .eUnconfigured
    else if s.fbytes = 0 then .eEmptyFrame
    else .eNone

/-- The first reason to reject `AFP.START_CONT a` (42_frame_parser.md R175, 60_exceptions.md R229). -/
def startContReject (a : Count) (s : State) : RejCode :=
  match startReject s with
  | .eNone => if a = 0 then .eZeroBurst else .eNone
  | r => r

/-- The first reason to reject `AFP.CFG v` (42_frame_parser.md R173, 60_exceptions.md R229). -/
def cfgReject (v : Nat) (s : State) : RejCode :=
  match s.st with
  | .halt => .eHalted
  | .cmd => .eBusy
  | .rx => .eBusy
  | .wait => .eBusy
  | .idle => if s.cfg.maximumSamples < v then .eRange else .eNone

/-- The first reason to reject `AFP.PULL` (42_frame_parser.md R177). -/
def pullReject (s : State) : RejCode :=
  match s.st with
  | .halt => .eHalted
  | .wait => .eNone
  | .idle => .eNotWaiting
  | .cmd => .eNotWaiting
  | .rx => .eNotWaiting

/-- The reason to reject `AFP.CANCEL` (42_frame_parser.md R189). -/
def cancelReject (s : State) : RejCode :=
  match s.st with
  | .halt => .eHalted
  | .idle => .eNone
  | .cmd => .eNone
  | .rx => .eNone
  | .wait => .eNone

end Sys2Proof.Machine
end

