-- ==== Sys2Proof/Machine/Ops.lean ====
section
/-! DEFINITION. The named operations the meanings share: reading and writing `OUT`, the transmit
stream, the one reject, the one way into `HALT` (60_exceptions.md R230) and the one way out of it
(70_reset_and_hazards.md R250), and the transfer of a host command (40_encoder.md R110). -/

namespace Sys2Proof.Machine

/-! ## Memory -/

/-- Memory's canonical form: addresses strictly rising. An unlisted byte has no value, so no entry can
equal it. -/
def Memory.wf (m : Memory) : Bool :=
  match m with
  | [] => true
  | [_] => true
  | a :: b :: rest => decide (a.1 < b.1) && Memory.wf (b :: rest)

/-- One byte of memory, if anything has written it (notes/assumptions/11.md). -/
def memByte (m : Memory) (a : Nat) : Option Byte :=
  match m with
  | [] => none
  | (b, v) :: rest => if b = a then some v else memByte rest a

/-- Write one byte, keeping the canonical form. -/
def memSetByte (m : Memory) (a : Nat) (v : Byte) : Memory :=
  match m with
  | [] => [(a, v)]
  | (b, w) :: rest =>
    if a < b then (a, v) :: (b, w) :: rest
    else if a = b then (a, v) :: rest
    else (b, w) :: memSetByte rest a v

/-- `MemRead(a, 2)`: cell `a`, if it has been written (00_scope.md R14, 20_memory.md R52). -/
def memReadCell (m : Memory) (a : Nat) : Option Sample :=
  match memByte m (2 * a), memByte m (2 * a + 1) with
  | some lo, some hi => some (hi ++ lo)
  | _, _ => none

/-- `MemWrite(a, 2, v)`: a whole cell in one step (00_scope.md R14, 20_memory.md R60). -/
def memWriteCell (m : Memory) (a : Nat) (v : Sample) : Memory :=
  memSetByte (memSetByte m (2 * a) (v.extractLsb' 0 8)) (2 * a + 1) (v.extractLsb' 8 8)

/-! ## Outputs -/

/-- The outputs with every pulse low. -/
def quietOutputs : Outputs := { evtDone := false }

/-- A step begins with every pulse low (00_scope.md R14). -/
def State.quiet (s : State) : State := { s with out := quietOutputs }

/-- `reject <Code>`: no change of state other than the pulse (00_scope.md R14, 60_exceptions.md R222). -/
def State.reject (s : State) (r : RejCode) : State := { s with out := { s.out with rejCode := r } }

/-- The error a caller-level operation reports (60_exceptions.md R220). -/
def State.tellCaller (s : State) (e : CallerError) : State :=
  { s with out := { s.out with callerError := some e } }

/-- A caller-level operation fails as a whole: its error is reported and nothing of it is left to do
(60_exceptions.md R220; notes/assumptions/32.md). -/
def State.failCall (s : State) (e : CallerError) : State :=
  { s with call := [], out := { s.out with callerError := some e } }

/-- An evaluation of the encoder shows on `word_o` (40_encoder.md R100). -/
def State.showWord (s : State) (w : Word64) : State := { s with out := { s.out with word := some w } }

/-! ## The transmit stream -/

/-- `TxWord(w)` for a word the encoder shows: it is appended as a whole (20_memory.md R51, R60). -/
def State.txWord (s : State) (w : Word64) : State :=
  { s with tx := s.tx ++ [w], out := { s.out with word := some w, txWord := some w } }

/-- `TX` as bytes on the wire (20_memory.md R51, R55; 40_encoder.md R108). -/
def State.txBytes (s : State) : List Byte := s.tx.flatMap (serWord s.cfg.wireOrder)

/-! ## Halt and reset -/

/-- `raise <cause>`: entering `HALT`; nothing but `st` and `cause` is written (60_exceptions.md R230). -/
def State.raiseHalt (s : State) (c : Cause) : State := { s with st := .halt, cause := c }

/-- `RESET`, the only way out of `HALT`: every register at its reset value, and a new session, whose
transmit history is empty and whose receive stream has no byte pending; a caller-level operation in
progress is given up, `OUT`, the turns and the host's other operations are as they were
(70_reset_and_hazards.md R250, R252, R256; 10_state.md R43, R45; notes/assumptions/14.md). -/
def State.resetBlock (s : State) : State :=
  { s with
    st := .idle, pos := 0, nValid := false, n := 0, mode := .bulk, amount := 0, evt := 0, fno := 0
    hold := 0, batchOk := false, cause := .none, tx := [], out := quietOutputs
    rxq := [], call := [], frames := 0 }

/-- A model instance for a choice of the parameters; one that breaks 00_scope.md R9 or R8 is refused
at configuration time (93_implementation_defined.md U16). -/
def instantiate (p : Params) : Host.Outcome State Fault Refusal :=
  if p.legal then .next (State.resetWith p) else .refused .illegalParameters

/-! ## The transfer of a host command -/

/-- `CWE.SEND code, sub, V` (40_encoder.md R110): in `IDLE` the word is appended to `TX` and no state
of the frame parser changes; in every other state the step is not enabled and the host waits, while
the encoder shows the word of the inputs it is offered (R100; notes/assumptions/3.md). -/
def cweSend (code : Code) (sub : SubIx) (operand : Int) (s : State) :
    Host.Outcome State Fault Refusal :=
  if s.st = .idle then .next (s.txWord (cweEncode code sub operand))
  else .next (s.showWord (cweEncode code sub operand))

/-- A failed `CWE.SEND`: `tx_err` while a host command is offered in `IDLE`. The word is not counted as
sent, the block halts (40_encoder.md R111), and the caller gets the connection error, which ends the
operation it was part of (60_exceptions.md R220). -/
def cweSendFailed (s : State) : State :=
  if s.st = .idle then (s.raiseHalt .ioTx).failCall .connectionError else s

/-! ## Placing a command -/

/-- The state with the host about to send the command whose word is `w`: the next turn is the host's
and sends it. -/
def State.placeCommand (s : State) (w : Word64) : State :=
  { s with
    sched :=
      .strobe (.send (cweDecode w).code (cweDecode w).sub ((cweDecode w).value.toNat : Int)) :: s.sched }

end Sys2Proof.Machine
end

