-- ==== Sys2Proof/Machine/Parser.lean ====
section
/-! DEFINITION. The operations of the acquisition frame parser (42_frame_parser.md R173 to R190).
Every operation is total: a host operation that is illegal is rejected with its code, and a device,
session or sequencer step outside its guard changes nothing (42_frame_parser.md R172). -/

namespace Sys2Proof.Machine

/-! ## Configuration and start -/

/-- `AFP.CFG v` (42_frame_parser.md R173). -/
def afpCfg (v : Nat) (s : State) : State :=
  match cfgReject v s with
  | .eNone => { s with n := v, nValid := true, batchOk := false }
  | r => s.reject r

/-- What both accepted start operations write (42_frame_parser.md R174, R175). -/
def State.beginAcquisition (s : State) (m : Mode) (a : Count) (next : SeqState) : State :=
  { s with
    st := next, pos := 0, mode := m, amount := a, evt := 0, fno := 0, batchOk := false, frames := 0 }

/-- `AFP.START_BULK a` (42_frame_parser.md R174). -/
def afpStartBulk (a : Count) (s : State) : State :=
  match startReject s with
  | .eNone => s.beginAcquisition .bulk a .cmd
  | r => s.reject r

/-- `AFP.START_CONT a` (42_frame_parser.md R175). -/
def afpStartCont (a : Count) (s : State) : State :=
  match startContReject a s with
  | .eNone => s.beginAcquisition .cont a .wait
  | r => s.reject r

/-! ## The start command and the pull -/

/-- The word of the start command: `CWE.ENCODE(31, 0, amount)` (42_frame_parser.md R176). -/
def State.startWord (s : State) : Word64 := cweEncode startCode startSub (s.amount.toNat : Int)

/-- The bulk batch is complete: `st <- IDLE`, `batch_ok <- 1`, `batch_done`
(42_frame_parser.md R176, R185). -/
def State.completeBatch (s : State) : State :=
  { s with st := .idle, batchOk := true, out := { s.out with batchDone := true } }

/-- `AFP.ISSUE`, enabled in `CMD` with the transmit stream ready (42_frame_parser.md R176). -/
def afpIssue (s : State) : State :=
  if s.st = .cmd then
    if s.mode = .bulk ∧ s.amount = 0 then (s.txWord s.startWord).completeBatch
    else { s.txWord s.startWord with st := .rx, pos := 0 }
  else s

/-- `AFP.PULL` (42_frame_parser.md R177). -/
def afpPull (s : State) : State :=
  match pullReject s with
  | .eNone => if s.evt = 0 then { s with st := .cmd } else { s with st := .rx, pos := 0 }
  | r => s.reject r

/-! ## Receiving a byte -/

/-- The second byte of a sample is there: the sample is assembled and stored, the payload shown on
the sample write port (42_frame_parser.md R183). -/
def State.storeSample (s : State) (b : Byte) : State :=
  let place := loc s.cfg.layout s.n s.pos
  let v := asmSample s.cfg.sampleOrder s.hold b
  { s with
    mem := memWriteCell s.mem (cellAddr s.n s.fno place.1 place.2) v
    out := { s.out with sample := some ⟨s.fno, place.1, place.2, v⟩ } }

/-- Step 1 of `AFP.RXBYTE`: the byte is held, completes a sample, or is dropped as padding
(42_frame_parser.md R180 to R184, R190). -/
def State.disposeByte (s : State) (b : Byte) : State :=
  if s.inSample s.pos then
    if s.pos % 2 = 0 then { s with hold := b } else s.storeSample b
  else s

/-- What the end of every frame writes: `pos`, `fno` and the pulse `evt_done`
(42_frame_parser.md R185, R186). -/
def State.frameTick (s : State) : State :=
  { s with
    pos := 0, fno := (s.fno + 1) % 2 ^ s.cfg.fnoW, frames := s.frames + 1
    out := { s.out with evtDone := true } }

/-- The end of a frame in bulk mode (42_frame_parser.md R185). -/
def State.closeBulkFrame (s : State) : State :=
  if s.evt + 1 = s.amount then { s.frameTick with evt := s.evt + 1 }.completeBatch
  else { s.frameTick with evt := s.evt + 1 }

/-- The end of a frame in continuous mode (42_frame_parser.md R186). -/
def State.closeContFrame (s : State) : State :=
  { s.frameTick with
    st := .wait
    evt := if s.evt + 1 = s.amount then 0 else s.evt + 1
    out := { s.frameTick.out with frameDone := some s.fno } }

/-- Step 3 of `AFP.RXBYTE`: closing the frame (42_frame_parser.md R185, R186, R190). -/
def State.closeFrame (s : State) : State :=
  match s.mode with
  | .bulk => s.closeBulkFrame
  | .cont => s.closeContFrame

/-- Steps 2 and 3 of `AFP.RXBYTE`: advance, or close the frame (42_frame_parser.md R190). -/
def State.advance (s : State) : State :=
  if s.pos + 1 < s.fbytes then { s with pos := s.pos + 1 } else s.closeFrame

/-- `AFP.RXBYTE b`, enabled in `RX` (42_frame_parser.md R179, R190). Step 1 writes `hold` and `OUT`
only, which steps 2 and 3 do not read, so the two in a row are the one simultaneous step. -/
def afpRxByte (b : Byte) (s : State) : State :=
  if s.st = .rx then (s.disposeByte b).advance else s

/-! ## Errors and cancel -/

/-- `AFP.RXERR`: noticed in `RX` only, elsewhere without effect and not remembered
(42_frame_parser.md R187). -/
def afpRxErr (s : State) : State := if s.st = .rx then s.raiseHalt .ioRx else s

/-- `AFP.TXERR`, enabled in `CMD`; nothing is appended to `TX` (42_frame_parser.md R188). -/
def afpTxErr (s : State) : State := if s.st = .cmd then s.raiseHalt .ioTx else s

/-- `AFP.CANCEL` (42_frame_parser.md R189). -/
def afpCancel (s : State) : State :=
  match cancelReject s with
  | .eNone => s.raiseHalt .closed
  | r => s.reject r

end Sys2Proof.Machine
end

