-- ==== Sys2Proof/Machine/Consumer.lean ====
section
/-! DEFINITION. The consumer's side of `OUT`: which cells a completion pulse covers
(20_memory.md R67, 10_state.md R32), what a read returns (93_implementation_defined.md U6), and the
array a caller gets from a finished batch (41_commands.md R154, 42_frame_parser.md R197). -/

namespace Sys2Proof.Machine

/-- The index triple names a cell of the array: two channels, `n` samples (20_memory.md R52). -/
def State.hasCell (s : State) (c i : Nat) : Bool := decide (c < 2) && decide (i < s.n)

/-- A frame with number `f` has been handed over in continuous mode and no later frame of that number
is being written: once `fno` has wrapped, frame numbers repeat (10_state.md R46; 42_frame_parser.md
R186, R196; notes/assumptions/13.md). -/
def State.handedOver (s : State) (f : Nat) : Bool :=
  decide (s.mode = .cont) && decide (f < s.frames) && !(decide (f = s.fno) && decide (s.pos ≠ 0))

/-- Frame number `f`, one that the `FNO_W` bits of `fno` can hold, is covered by a completion pulse: by
`batch_done` while `batch_ok` stands (10_state.md R32), by its `frame_done` in continuous mode
(20_memory.md R67). -/
def State.covered (s : State) (f : Nat) : Bool :=
  decide (f < 2 ^ s.cfg.fnoW) &&
    ((s.batchOk && decide (f < s.amount.toNat)) || s.handedOver f)

/-- The sample in a covered cell of the array; `none` where no completion pulse covers it
(42_frame_parser.md R197). -/
def State.sampleAt (s : State) (f c i : Nat) : Option Sample :=
  if s.covered f && s.hasCell c i then memReadCell s.mem (cellAddr s.n f c i) else none

/-- The consumer's `MemRead` of `OUT[f][c][i]`: the sample in a covered cell, a free value in any
other, a fault where the array has no such cell (20_memory.md R52, 93_implementation_defined.md U6;
notes/assumptions/11.md, notes/assumptions/25.md). -/
def consumerRead (f c i : Nat) (s : State) : Host.Outcome State Fault Refusal :=
  if s.hasCell c i then
    match s.sampleAt f c i with
    | some v => .next { s with out := { s.out with readData := some v } }
    | none =>
      .next { s with
        out := { s.out with readData := some (Config.undefinedSample s.freeCtr) }
        freeCtr := s.freeCtr + 1 }
  else .fault .noSuchCell

/-- The two channels of one covered frame, as the numbers a consumer sees: shape `(2, n)`
(41_commands.md R155). -/
def State.frameArray (s : State) (f : Nat) : List (List (Option Int)) :=
  [0, 1].map fun c => (List.range s.n).map fun i => (s.sampleAt f c i).map sampleValue

/-- The array of a finished bulk batch, shape `(amount, 2, n)`; no array at all for a batch that did
not finish (41_commands.md R154, 42_frame_parser.md R197). -/
def State.batchArray (s : State) : Option (List (List (List (Option Int)))) :=
  if s.batchOk then some ((List.range s.amount.toNat).map s.frameArray) else none

end Sys2Proof.Machine
end

