-- ==== Sys2Proof/Machine/Caller.lean ====
section
/-! DEFINITION. The caller-level operations of 41_commands.md R152 to R156 and R159: each is checked,
and expands to host operations or reports an error and does nothing. The caller's mirror of the
configuration is out of scope (00_scope.md R5(b)); the two facts of it that a check needs come along
as a `CallerView` (notes/assumptions/21.md). What an accepted operation still has to do stands in
`State.call`, and an error gives it up as a whole (notes/assumptions/32.md). -/

namespace Sys2Proof.Machine

/-! ## Calls for one command -/

/-- The number the caller sends for a trigger source (41_commands.md R133; 91_not_in_source.md N9). -/
def sourceNumber (p : Params) (m : TriggerSource) : Value :=
  match m with
  | .channel0 => p.trigger.channel0
  | .channel1 => p.trigger.channel1

/-- The number the caller sends for a trigger slope (41_commands.md R134; 91_not_in_source.md N9). -/
def slopeNumber (p : Params) (m : TriggerSlope) : Value :=
  match m with
  | .rising => p.trigger.rising
  | .falling => p.trigger.falling

/-- The number the caller sends for a trigger mode (41_commands.md R135; 91_not_in_source.md N9). -/
def modeNumber (p : Params) (m : TriggerMode) : Value :=
  match m with
  | .normal => p.trigger.normal
  | .automatic => p.trigger.automatic

/-- `0` or `1` (41_commands.md R125). -/
def isBit (v : Int) : Bool := v == 0 || v == 1

/-- An operand of a domain the source names and does not list. It reaches the encoder only if the value
field holds it (70_reset_and_hazards.md R267; notes/assumptions/22.md). -/
def domainOk (code : Code) (v : Int) : Bool :=
  decide (-2 ^ 51 ≤ v) && decide (v < 2 ^ 52) && Config.callerDomain code v

/-- The setter contract: the command's word, or an error and nothing sent (41_commands.md R159). -/
def sendIf (ok : Bool) (code : Code) (sub : SubIx) (operand : Int) : Except CallerError (List HostOp) :=
  if ok then .ok [.send code sub operand] else .error .invalidArgument

/-- A call for one command: the check is of the input as it was given, before it is encoded
(41_commands.md R120 to R150, R157, R159; 70_reset_and_hazards.md R267). -/
def expandSetter (p : Params) (view : CallerView) (c : CallerCommand) :
    Except CallerError (List HostOp) :=
  match c with
  | .rstHist => sendIf true 0 0 0
  | .rstTimer => sendIf true 1 0 0
  | .rstOsc => sendIf true 2 0 0
  | .rstGen => sendIf true 3 0 0
  | .setRate v => sendIf (domainOk 4 v) 4 0 v
  | .setNeg channel v => sendIf (isBit channel && isBit v) 5 (BitVec.ofInt 4 channel) v
  | .setPhaDelay v => sendIf true 6 0 v
  | .setPhaMin v => sendIf true 7 0 v
  | .setPhaMax v => sendIf true 8 0 v
  | .setTimer v => sendIf true 9 0 v
  | .setTimerMode v => sendIf true 10 0 v
  | .rdStatus => sendIf true 11 0 0
  | .rdHist => sendIf true 12 0 0
  | .setTrgSrc none => .error .invalidArgument
  | .setTrgSrc (some m) => sendIf true 13 0 ((sourceNumber p m).toNat : Int)
  | .setTrgSlope none => .error .invalidArgument
  | .setTrgSlope (some m) => sendIf true 14 0 ((slopeNumber p m).toNat : Int)
  | .setTrgMode none => .error .invalidArgument
  | .setTrgMode (some m) => sendIf true 15 0 ((modeNumber p m).toNat : Int)
  | .setTrgLevel v => sendIf (decide (-4096 ≤ v) && decide (v ≤ 4095)) 16 0 v
  | .setPre n => sendIf (decide (0 ≤ n) && preTriggerOk p view n.toNat) 17 0 n
  | .startOsc => sendIf true 19 0 0
  | .rdOsc => sendIf true 20 0 0
  | .setFall v => sendIf (domainOk 21 v) 21 0 v
  | .setRise v => sendIf (domainOk 22 v) 22 0 v
  | .setLower v => sendIf true 23 0 v
  | .setUpper v => sendIf true 24 0 v
  | .setGenRate v => sendIf (domainOk 25 v) 25 0 v
  | .setDist v => sendIf (domainOk 26 v) 26 0 v
  | .rstSpec => sendIf true 27 0 0
  | .startGen => sendIf true 29 0 0
  | .stopGen => sendIf true 30 0 0

/-! ## Pseudo-operations -/

/-- `SET_TOTAL_SAMPLES n`: the lengths are recomputed first, then command 18 goes out with
`n + PADDING_COUNT` (41_commands.md R138, R152). -/
def expandSetTotalSamples (p : Params) (view : CallerView) (n : Int) :
    Except CallerError (List HostOp) :=
  if decide (0 ≤ n) && totalOk p view n.toNat then
    .ok [.cfg n.toNat, .send 18 0 (totalOperand p n.toNat)]
  else .error .invalidArgument

/-- The bin-set commands from bin `i` on, in ascending order of the index (41_commands.md R153). -/
def binCommands (i : Nat) (weights : List Int) : List HostOp :=
  match weights with
  | [] => []
  | weight :: rest => .send 28 0 (binOperand i weight) :: binCommands (i + 1) rest

/-- `SET_SPECTRUM weights`: exactly 4096 weights, exactly 4096 commands (41_commands.md R153;
00_scope.md R7 `SPECTRUM_BINS`). A weight outside `[0, 2^32)` is refused, as an invalid argument
(41_commands.md R148, 93_implementation_defined.md U18; notes/assumptions/23.md). -/
def expandSetSpectrum (weights : List Int) : Except CallerError (List HostOp) :=
  if weights.length = 4096 && weights.all weightOk then .ok (binCommands 0 weights)
  else .error .invalidArgument

/-- `ACQUIRE_BATCH count`: start, then wait for `batch_done` (41_commands.md R154). The array is
`State.batchArray`. -/
def expandAcquireBatch (count : Count) : List HostOp := [.startBulk count, .awaitBatch]

/-- The pulls of a consumer that wants `frames` more frames (41_commands.md R155). -/
def pullCommands (frames : Nat) : List HostOp :=
  match frames with
  | 0 => []
  | k + 1 => .pull :: .awaitFrame :: pullCommands k

/-- `STREAM_EVENTS burst`, pulled `frames` times (41_commands.md R155). The pulls go on if the start was
rejected, and then take frames of a stream that was running already (notes/assumptions/21.md). -/
def expandStreamEvents (burst : Count) (frames : Nat) : List HostOp :=
  .startCont burst :: pullCommands frames

/-- `SET_SPECTRUM_GENERIC` fails at once and does nothing (41_commands.md R156). -/
def expandSetSpectrumGeneric : Except CallerError (List HostOp) := .error .notImplemented

/-! ## Running a caller-level operation -/

/-- A caller-level operation becomes the operation in progress, or its error is reported and nothing is
done (41_commands.md R159, 60_exceptions.md R220). -/
def runExpansion (e : Except CallerError (List HostOp)) (s : State) : State :=
  match e with
  | .ok ops => { s with call := ops ++ s.call }
  | .error err => s.tellCaller err

/-- An operation of a call that is not a wait is not begun in `HALT`: the session is gone, so the call
fails (60_exceptions.md R220, 70_reset_and_hazards.md R256; notes/assumptions/32.md). A wait reports
the halt itself. -/
def callBroken (op : HostOp) (s : State) : Bool :=
  s.halted && op != .awaitBatch && op != .awaitFrame

/-- The end of the caller's wait for a batch: the batch stands, the session broke, or none was
started (41_commands.md R154, 60_exceptions.md R220). The batch may be one that ran before the call, whose
own start was then rejected (notes/assumptions/21.md). -/
def endAwaitBatch (s : State) : State :=
  match s.st with
  | .halt => if s.batchOk then s else s.failCall .connectionError
  | .idle => if s.batchOk then s else s.failCall .invalidArgument
  | .cmd => s
  | .rx => s
  | .wait => s

/-- The end of the caller's wait for a frame (41_commands.md R155, 60_exceptions.md R220;
notes/assumptions/21.md). -/
def endAwaitFrame (s : State) : State :=
  match s.st with
  | .halt => s.failCall .connectionError
  | .idle => s.failCall .invalidArgument
  | .cmd => s
  | .rx => s
  | .wait => s

end Sys2Proof.Machine
end

