-- ==== Sys2Proof/Machine/GeneratorCommands.lean ====
section
/-! DEFINITION. The commands of the generator, its limits and its spectrum (41_commands.md R141 to R146, R148).
Each meaning is one `CWE.SEND` of the command's own code (40_encoder.md R110). -/

namespace Sys2Proof.Machine

/-- `SET_FALL`: `w = CWE.ENCODE(21, sub, V)` (41_commands.md R141). -/
def execSetFall (sub : SubIx) (value : Value) (s : State) : Host.Outcome State Fault Refusal :=
  cweSend 21 sub (value.toNat : Int) s

/-- `SET_RISE`: `w = CWE.ENCODE(22, sub, V)` (41_commands.md R142). -/
def execSetRise (sub : SubIx) (value : Value) (s : State) : Host.Outcome State Fault Refusal :=
  cweSend 22 sub (value.toNat : Int) s

/-- `SET_LOWER`: `w = CWE.ENCODE(23, sub, V)` (41_commands.md R143). -/
def execSetLower (sub : SubIx) (value : Value) (s : State) : Host.Outcome State Fault Refusal :=
  cweSend 23 sub (value.toNat : Int) s

/-- `SET_UPPER`: `w = CWE.ENCODE(24, sub, V)` (41_commands.md R144). -/
def execSetUpper (sub : SubIx) (value : Value) (s : State) : Host.Outcome State Fault Refusal :=
  cweSend 24 sub (value.toNat : Int) s

/-- `SET_GEN_RATE`: `w = CWE.ENCODE(25, sub, V)` (41_commands.md R145). -/
def execSetGenRate (sub : SubIx) (value : Value) (s : State) : Host.Outcome State Fault Refusal :=
  cweSend 25 sub (value.toNat : Int) s

/-- `SET_DIST`: `w = CWE.ENCODE(26, sub, V)` (41_commands.md R146). -/
def execSetDist (sub : SubIx) (value : Value) (s : State) : Host.Outcome State Fault Refusal :=
  cweSend 26 sub (value.toNat : Int) s

/-- `SET_BIN`: `w = CWE.ENCODE(28, sub, V)` (41_commands.md R148). The bin index travels in the value
(30_encoding.md R81). -/
def execSetBin (sub : SubIx) (value : Value) (s : State) : Host.Outcome State Fault Refusal :=
  cweSend 28 sub (value.toNat : Int) s

end Sys2Proof.Machine
end

