-- ==== Sys2Proof/Machine/ReadCommands.lean ====
section
/-! DEFINITION. The commands that make the device answer (41_commands.md R131, R132, R140). The answer has no layout in the
spec and the frame parser takes none of it (41_commands.md R158).
Each meaning is one `CWE.SEND` of the command's own code (40_encoder.md R110). -/

namespace Sys2Proof.Machine

/-- `RD_STATUS`: `w = CWE.ENCODE(11, sub, V)` (41_commands.md R131). The frame parser takes none of the answer (R158). -/
def execRdStatus (sub : SubIx) (value : Value) (s : State) : Host.Outcome State Fault Refusal :=
  cweSend 11 sub (value.toNat : Int) s

/-- `RD_HIST`: `w = CWE.ENCODE(12, sub, V)` (41_commands.md R132). The frame parser takes none of the answer (R158). -/
def execRdHist (sub : SubIx) (value : Value) (s : State) : Host.Outcome State Fault Refusal :=
  cweSend 12 sub (value.toNat : Int) s

/-- `RD_OSC`: `w = CWE.ENCODE(20, sub, V)` (41_commands.md R140). The frame parser takes none of the answer (R158). -/
def execRdOsc (sub : SubIx) (value : Value) (s : State) : Host.Outcome State Fault Refusal :=
  cweSend 20 sub (value.toNat : Int) s

end Sys2Proof.Machine
end

