-- ==== Sys2Proof/Machine/ResetCommands.lean ====
section
/-! DEFINITION. The commands that reset something inside the device (41_commands.md R120 to R123, R147). They reset nothing in the
blocks (70_reset_and_hazards.md R253).
Each meaning is one `CWE.SEND` of the command's own code (40_encoder.md R110). -/

namespace Sys2Proof.Machine

/-- `RST_HIST`: `w = CWE.ENCODE(0, sub, V)` (41_commands.md R120). -/
def execRstHist (sub : SubIx) (value : Value) (s : State) : Host.Outcome State Fault Refusal :=
  cweSend 0 sub (value.toNat : Int) s

/-- `RST_TIMER`: `w = CWE.ENCODE(1, sub, V)` (41_commands.md R121). -/
def execRstTimer (sub : SubIx) (value : Value) (s : State) : Host.Outcome State Fault Refusal :=
  cweSend 1 sub (value.toNat : Int) s

/-- `RST_OSC`: `w = CWE.ENCODE(2, sub, V)` (41_commands.md R122). -/
def execRstOsc (sub : SubIx) (value : Value) (s : State) : Host.Outcome State Fault Refusal :=
  cweSend 2 sub (value.toNat : Int) s

/-- `RST_GEN`: `w = CWE.ENCODE(3, sub, V)` (41_commands.md R123). -/
def execRstGen (sub : SubIx) (value : Value) (s : State) : Host.Outcome State Fault Refusal :=
  cweSend 3 sub (value.toNat : Int) s

/-- `RST_SPEC`: `w = CWE.ENCODE(27, sub, V)` (41_commands.md R147). -/
def execRstSpec (sub : SubIx) (value : Value) (s : State) : Host.Outcome State Fault Refusal :=
  cweSend 27 sub (value.toNat : Int) s

end Sys2Proof.Machine
end

