-- ==== Sys2Proof/Machine/SettingCommands.lean ====
section
/-! DEFINITION. The commands that set the sample rate, the negators, the PHA and the timer (41_commands.md R124 to R130).
Each meaning is one `CWE.SEND` of the command's own code (40_encoder.md R110). -/

namespace Sys2Proof.Machine

/-- `SET_RATE`: `w = CWE.ENCODE(4, sub, V)` (41_commands.md R124). -/
def execSetRate (sub : SubIx) (value : Value) (s : State) : Host.Outcome State Fault Refusal :=
  cweSend 4 sub (value.toNat : Int) s

/-- `SET_NEG`: `w = CWE.ENCODE(5, sub, V)` (41_commands.md R125). The channel travels in `sub`. -/
def execSetNeg (sub : SubIx) (value : Value) (s : State) : Host.Outcome State Fault Refusal :=
  cweSend 5 sub (value.toNat : Int) s

/-- `SET_PHA_DELAY`: `w = CWE.ENCODE(6, sub, V)` (41_commands.md R126). -/
def execSetPhaDelay (sub : SubIx) (value : Value) (s : State) : Host.Outcome State Fault Refusal :=
  cweSend 6 sub (value.toNat : Int) s

/-- `SET_PHA_MIN`: `w = CWE.ENCODE(7, sub, V)` (41_commands.md R127). -/
def execSetPhaMin (sub : SubIx) (value : Value) (s : State) : Host.Outcome State Fault Refusal :=
  cweSend 7 sub (value.toNat : Int) s

/-- `SET_PHA_MAX`: `w = CWE.ENCODE(8, sub, V)` (41_commands.md R128). -/
def execSetPhaMax (sub : SubIx) (value : Value) (s : State) : Host.Outcome State Fault Refusal :=
  cweSend 8 sub (value.toNat : Int) s

/-- `SET_TIMER`: `w = CWE.ENCODE(9, sub, V)` (41_commands.md R129). -/
def execSetTimer (sub : SubIx) (value : Value) (s : State) : Host.Outcome State Fault Refusal :=
  cweSend 9 sub (value.toNat : Int) s

/-- `SET_TIMER_MODE`: `w = CWE.ENCODE(10, sub, V)` (41_commands.md R130). -/
def execSetTimerMode (sub : SubIx) (value : Value) (s : State) : Host.Outcome State Fault Refusal :=
  cweSend 10 sub (value.toNat : Int) s

end Sys2Proof.Machine
end

