-- ==== Sys2Proof/Machine/StartCommands.lean ====
section
/-! DEFINITION. The commands that start and stop something in the device (41_commands.md R139, R149 to R151).
Each meaning is one `CWE.SEND` of the command's own code (40_encoder.md R110). -/

namespace Sys2Proof.Machine

/-- `START_OSC`: `w = CWE.ENCODE(19, sub, V)` (41_commands.md R139). -/
def execStartOsc (sub : SubIx) (value : Value) (s : State) : Host.Outcome State Fault Refusal :=
  cweSend 19 sub (value.toNat : Int) s

/-- `START_GEN`: `w = CWE.ENCODE(29, sub, V)` (41_commands.md R149). -/
def execStartGen (sub : SubIx) (value : Value) (s : State) : Host.Outcome State Fault Refusal :=
  cweSend 29 sub (value.toNat : Int) s

/-- `STOP_GEN`: `w = CWE.ENCODE(30, sub, V)` (41_commands.md R150). -/
def execStopGen (sub : SubIx) (value : Value) (s : State) : Host.Outcome State Fault Refusal :=
  cweSend 30 sub (value.toNat : Int) s

/-- `START_ACQ`: `w = CWE.ENCODE(31, sub, V)` (41_commands.md R151). The frame parser stays in `IDLE`:
a host that sends this by hand gets frames nobody parses (70_reset_and_hazards.md R262). -/
def execStartAcq (sub : SubIx) (value : Value) (s : State) : Host.Outcome State Fault Refusal :=
  cweSend 31 sub (value.toNat : Int) s

end Sys2Proof.Machine
end

