-- ==== Sys2Proof/Machine/TriggerCommands.lean ====
section
/-! DEFINITION. The commands of the trigger and of the sample counts (41_commands.md R133 to R138).
Each meaning is one `CWE.SEND` of the command's own code (40_encoder.md R110). -/

namespace Sys2Proof.Machine

/-- `SET_TRG_SRC`: `w = CWE.ENCODE(13, sub, V)` (41_commands.md R133). -/
def execSetTrgSrc (sub : SubIx) (value : Value) (s : State) : Host.Outcome State Fault Refusal :=
  cweSend 13 sub (value.toNat : Int) s

/-- `SET_TRG_SLOPE`: `w = CWE.ENCODE(14, sub, V)` (41_commands.md R134). -/
def execSetTrgSlope (sub : SubIx) (value : Value) (s : State) : Host.Outcome State Fault Refusal :=
  cweSend 14 sub (value.toNat : Int) s

/-- `SET_TRG_MODE`: `w = CWE.ENCODE(15, sub, V)` (41_commands.md R135). -/
def execSetTrgMode (sub : SubIx) (value : Value) (s : State) : Host.Outcome State Fault Refusal :=
  cweSend 15 sub (value.toNat : Int) s

/-- `SET_TRG_LEVEL`: `w = CWE.ENCODE(16, sub, V)` (41_commands.md R136). -/
def execSetTrgLevel (sub : SubIx) (value : Value) (s : State) : Host.Outcome State Fault Refusal :=
  cweSend 16 sub (value.toNat : Int) s

/-- `SET_PRE`: `w = CWE.ENCODE(17, sub, V)` (41_commands.md R137). -/
def execSetPre (sub : SubIx) (value : Value) (s : State) : Host.Outcome State Fault Refusal :=
  cweSend 17 sub (value.toNat : Int) s

/-- `SET_TOT`: `w = CWE.ENCODE(18, sub, V)` (41_commands.md R138). The caller sends `n + PADDING_COUNT`
(30_encoding.md R82); the frame parser learns `n` by `AFP.CFG` only. -/
def execSetTot (sub : SubIx) (value : Value) (s : State) : Host.Outcome State Fault Refusal :=
  cweSend 18 sub (value.toNat : Int) s

end Sys2Proof.Machine
end

