-- ==== Sys2Proof/Machine/Dispatch.lean ====
section
/-! DEFINITION. From a command to its meaning, one arm per row of spec/opcode_table.json. -/

namespace Sys2Proof.Machine

def exec (i : Instr) (s : State) : Host.Outcome State Fault Refusal :=
  match i with
  | .rstHist sub value => Sys2Proof.Machine.execRstHist sub value s
  | .rstTimer sub value => Sys2Proof.Machine.execRstTimer sub value s
  | .rstOsc sub value => Sys2Proof.Machine.execRstOsc sub value s
  | .rstGen sub value => Sys2Proof.Machine.execRstGen sub value s
  | .setRate sub value => Sys2Proof.Machine.execSetRate sub value s
  | .setNeg sub value => Sys2Proof.Machine.execSetNeg sub value s
  | .setPhaDelay sub value => Sys2Proof.Machine.execSetPhaDelay sub value s
  | .setPhaMin sub value => Sys2Proof.Machine.execSetPhaMin sub value s
  | .setPhaMax sub value => Sys2Proof.Machine.execSetPhaMax sub value s
  | .setTimer sub value => Sys2Proof.Machine.execSetTimer sub value s
  | .setTimerMode sub value => Sys2Proof.Machine.execSetTimerMode sub value s
  | .rdStatus sub value => Sys2Proof.Machine.execRdStatus sub value s
  | .rdHist sub value => Sys2Proof.Machine.execRdHist sub value s
  | .setTrgSrc sub value => Sys2Proof.Machine.execSetTrgSrc sub value s
  | .setTrgSlope sub value => Sys2Proof.Machine.execSetTrgSlope sub value s
  | .setTrgMode sub value => Sys2Proof.Machine.execSetTrgMode sub value s
  | .setTrgLevel sub value => Sys2Proof.Machine.execSetTrgLevel sub value s
  | .setPre sub value => Sys2Proof.Machine.execSetPre sub value s
  | .setTot sub value => Sys2Proof.Machine.execSetTot sub value s
  | .startOsc sub value => Sys2Proof.Machine.execStartOsc sub value s
  | .rdOsc sub value => Sys2Proof.Machine.execRdOsc sub value s
  | .setFall sub value => Sys2Proof.Machine.execSetFall sub value s
  | .setRise sub value => Sys2Proof.Machine.execSetRise sub value s
  | .setLower sub value => Sys2Proof.Machine.execSetLower sub value s
  | .setUpper sub value => Sys2Proof.Machine.execSetUpper sub value s
  | .setGenRate sub value => Sys2Proof.Machine.execSetGenRate sub value s
  | .setDist sub value => Sys2Proof.Machine.execSetDist sub value s
  | .rstSpec sub value => Sys2Proof.Machine.execRstSpec sub value s
  | .setBin sub value => Sys2Proof.Machine.execSetBin sub value s
  | .startGen sub value => Sys2Proof.Machine.execStartGen sub value s
  | .stopGen sub value => Sys2Proof.Machine.execStopGen sub value s
  | .startAcq sub value => Sys2Proof.Machine.execStartAcq sub value s

end Sys2Proof.Machine
end

