-- ==== Sys2Proof/Machine/Turns.lean ====
section
/-! DEFINITION. One step: the next turn of `State.sched` is taken (00_scope.md R10, R11, R15). A turn
whose step is not enabled changes nothing but the list of turns and the outputs; a host operation that
has to wait and a byte that is not taken stay where they are (notes/assumptions/1.md to 3.md). -/

namespace Sys2Proof.Machine

/-! ## The host -/

/-- The host sends a command. A word of the table runs as the command it decodes to; any other code is
packed and sent unchanged (40_encoder.md R102, R110; 30_encoding.md R84). -/
def sendCommand (code : Code) (sub : SubIx) (operand : Int) (s : State) :
    Host.Outcome State Fault Refusal :=
  match decodeWord (cweEncode code sub operand) with
  | .ok i => exec i s
  | .error _ => cweSend code sub operand s

/-- A host operation that is not enabled yet, so that the host waits: a command outside `IDLE`
(40_encoder.md R110), a wait that is not over (41_commands.md R154, R155). -/
def hostWaits (op : HostOp) (s : State) : Bool :=
  match op with
  | .send _ _ _ => !s.hostCmdReady
  | .awaitBatch => s.busy
  | .awaitFrame => s.st == .cmd || s.st == .rx
  | .encode _ _ _ => false
  | .cfg _ => false
  | .startBulk _ => false
  | .startCont _ => false
  | .pull => false
  | .cancel => false
  | .read _ _ _ => false
  | .setter _ _ => false
  | .setTotalSamples _ _ => false
  | .setSpectrum _ => false
  | .acquireBatch _ => false
  | .streamEvents _ _ => false
  | .setSpectrumGeneric => false

/-- One operation of the host (00_scope.md R11). -/
def runHostOp (op : HostOp) (s : State) : Host.Outcome State Fault Refusal :=
  match op with
  | .send code sub operand => sendCommand code sub operand s
  | .encode code sub operand => .next (s.showWord (cweEncode code sub operand))
  | .cfg v => .next (afpCfg v s)
  | .startBulk a => .next (afpStartBulk a s)
  | .startCont a => .next (afpStartCont a s)
  | .pull => .next (afpPull s)
  | .cancel => .next (afpCancel s)
  | .read f c i => consumerRead f c i s
  | .awaitBatch => .next (endAwaitBatch s)
  | .awaitFrame => .next (endAwaitFrame s)
  | .setter view c => .next (runExpansion (expandSetter s.cfg view c) s)
  | .setTotalSamples view n => .next (runExpansion (expandSetTotalSamples s.cfg view n) s)
  | .setSpectrum weights => .next (runExpansion (expandSetSpectrum weights) s)
  | .acquireBatch count => .next (runExpansion (.ok (expandAcquireBatch count)) s)
  | .streamEvents burst frames => .next (runExpansion (.ok (expandStreamEvents burst frames)) s)
  | .setSpectrumGeneric => .next (runExpansion expandSetSpectrumGeneric s)

/-- What a waiting operation shows: a command is offered to the encoder, which shows its word
(40_encoder.md R100); the other waits show nothing. -/
def offerOp (op : HostOp) (s : State) : State :=
  match op with
  | .send code sub operand => s.showWord (cweEncode code sub operand)
  | _ => s

/-- One operation the host has taken from its pending ones, which leaves the state `taken`. -/
def tryHostOp (op : HostOp) (s taken : State) : Host.Outcome State Fault Refusal :=
  if hostWaits op s then .next (offerOp op s) else runHostOp op taken

/-- The host's turn: the next part of the caller-level operation in progress, which fails as a whole if
the session is gone, or else the next pending operation; if it need not wait. -/
def hostTurn (s : State) : Host.Outcome State Fault Refusal :=
  match s.call with
  | op :: rest =>
    if callBroken op s then .next (s.failCall .connectionError)
    else tryHostOp op s { s with call := rest }
  | [] =>
    match s.host with
    | [] => .next s
    | op :: rest => tryHostOp op s { s with host := rest }

/-! ## The device and the session -/

/-- Bytes of the device's choice reach the session, behind those it holds (20_memory.md R54, R65(b)). An
answer to a read command that an outside reader drains is one that does not arrive
(notes/assumptions/33.md). -/
def arriveTurn (bytes : List Byte) (s : State) : State := { s with rxq := s.rxq ++ bytes }

/-- The device's turn: the first byte the session holds is taken in `RX`; in every other state it
stays with the session (42_frame_parser.md R179, 92_eei_decisions.md D24), and whatever the session holds
at a start comes first in the next frame (70_reset_and_hazards.md R261; notes/assumptions/33.md). -/
def deviceTurn (s : State) : State :=
  match s.rxq with
  | [] => s
  | b :: rest => if s.rxReady then afpRxByte b { s with rxq := rest } else s

/-- `tx_err` of a clock cycle: `AFP.TXERR` in `CMD`, a failed `CWE.SEND` in `IDLE` if a host command is
offered, else nothing (42_frame_parser.md R170, R188; 40_encoder.md R111). A caller-level operation in
progress fails with the command, although the command at the port is no part of it
(notes/assumptions/19.md). -/
def txErrWith (offered : Bool) (s : State) : State :=
  if offered && s.hostCmdReady then cweSendFailed s else afpTxErr s

/-- The host's next operation: of the caller-level operation in progress, else of the pending ones. -/
def State.nextOp (s : State) : Option HostOp :=
  match s.call with
  | op :: _ => some op
  | [] => s.host.head?

/-- The state without the host's next operation, where that is one of the pending ones; a caller-level
operation in progress stands by itself. -/
def State.dropPending (s : State) : State :=
  match s.call with
  | _ :: _ => s
  | [] => { s with host := s.host.tail }

/-- The session's `tx_err`. The host offers a command while it is its next operation. A command that
failed is no longer pending, and the rest of the caller-level operation it was part of is given up
with it (60_exceptions.md R220; notes/assumptions/19.md and 32.md). -/
def txErrTurn (s : State) : State :=
  match s.nextOp with
  | some (.send code sub operand) =>
    if s.hostCmdReady then cweSendFailed (s.dropPending.showWord (cweEncode code sub operand))
    else afpTxErr s
  | _ => afpTxErr s

/-! ## A clock cycle -/

/-- The stream transfer the state allows: a byte in `RX`, the first the session holds; the start command
in `CMD`; a host command in `IDLE` (60_exceptions.md R228 point 4; notes/assumptions/20.md). -/
def transferTurn (p : PortInputs) (s : State) : Host.Outcome State Fault Refusal :=
  match s.st with
  | .rx => if p.rxValid then .next (deviceTurn s) else .next s
  | .cmd => if p.txReady then .next (afpIssue s) else .next s
  | .idle =>
    if p.inValid && p.txReady then sendCommand p.cmdI p.subI ((portValue s.cfg p).toNat : Int) s
    else .next s
  | .wait => .next s
  | .halt => .next s

/-- What the encoder shows in a cycle: `out_valid = in_valid`, and `word_o` is the word of the inputs
whatever the state of the parser (40_encoder.md R100). -/
def showPorts (p : PortInputs) (s : State) : State :=
  if p.inValid then s.showWord (portWord s.cfg p) else s

/-- The start operation on `start_mode` and `start_amount` (42_frame_parser.md R170). -/
def startOp (p : PortInputs) : HostOp :=
  match p.startMode with
  | .bulk => .startBulk p.startAmount
  | .cont => .startCont p.startAmount

/-- The inputs of one clock cycle as consecutive turns, in the order of 60_exceptions.md R228. -/
def clockTurns (p : PortInputs) : List Turn :=
  if p.rst then [.rst]
  else
    (if p.cancel then [.strobe .cancel] else []) ++
    (if p.rxErr then [.rxErr] else []) ++
    (if p.txErr then [.txErrPort p.inValid] else []) ++
    [.transfer p] ++
    (if p.cfgWe then [.strobe (.cfg p.cfgN)] else []) ++
    (if p.startWe then [.strobe (startOp p)] else []) ++
    (if p.pull then [.strobe .pull] else [])

/-! ## One turn, one step -/

/-- One turn. -/
def takeTurn (t : Turn) (s : State) : Host.Outcome State Fault Refusal :=
  match t with
  | .host => hostTurn s
  | .sequencer => .next (afpIssue s)
  | .arrive bytes => .next (arriveTurn bytes s)
  | .device => .next (deviceTurn s)
  | .rxErr => .next (afpRxErr s)
  | .txErr => .next (txErrTurn s)
  | .rst => .next s.resetBlock
  | .strobe op => runHostOp op s
  | .txErrPort offered => .next (txErrWith offered s)
  | .transfer p => transferTurn p s
  | .clock p => .next (showPorts p { s with sched := clockTurns p ++ s.sched })

/-- One step: every pulse low, then the next turn. With no turn to take the blocks do nothing
(70_reset_and_hazards.md R251; notes/assumptions/5.md). -/
def nextTurn (s : State) : Host.Outcome State Fault Refusal :=
  match s.sched with
  | [] => .next s.quiet
  | t :: rest => takeTurn t { s.quiet with sched := rest }

end Sys2Proof.Machine
end

