-- ==== Sys2Proof/Machine/Step.lean ====
section
/-! DEFINITION. The step function, and how the host's checks place a command where the next step
takes it (notes/assumptions/4.md). -/

namespace Sys2Proof.Machine

/-- One step of the machine (00_scope.md R10). -/
def step (s : State) : Host.Outcome State Fault Refusal := nextTurn s

/-- `s` with the command whose bits are `w` where the very next step takes its command. -/
def State.withFetchWord (s : State) (nbits w : Nat) : State :=
  s.placeCommand (BitVec.ofNat 64 (w % 2 ^ nbits))

end Sys2Proof.Machine
end

