-- ==== Sys2Proof/Safety.lean ====
section
/-! DEFINITION. What statements about the machine speak of: the invariants of every reachable state
(10_state.md R44), which cells a covered frame has written, and the runs of a receiving parser, one
frame or one batch long (42_frame_parser.md R191 to R193). -/

namespace Sys2Proof.Machine

/-! ## What statements about one step say -/

/-- The state as a turn finds it: the pulses low, the turn gone from the list, all else as it was. -/
def State.took (s : State) (rest : List Turn) : State :=
  { s with out := quietOutputs, sched := rest }

/-- In `IDLE` the command answers a next state in which the word `code * 2^56 + sub * 2^52 + value` is
appended to `TX` and shown on `word_o`, and nothing else has changed (40_encoder.md R101, R110). -/
def Sends (i : Instr) (code sub value : Nat) : Prop :=
  ∀ s : State, s.st = .idle →
    ∃ w : Word64, w.toNat = code * 2 ^ 56 + sub * 2 ^ 52 + value ∧
      exec i s = .next { s with
        tx := s.tx ++ [w], out := { s.out with word := some w, txWord := some w } }

/-- The call of this step passes its check: its one command is the host's next operation, and nothing
else has changed (41_commands.md R159). -/
def BeginsSend (s : State) (rest : List Turn) (code : Code) (sub : SubIx) (operand : Int) : Prop :=
  step s = .next { s.took rest with call := .send code sub operand :: s.call }

/-- The call of this step fails its check: it reports an invalid argument and does nothing
(41_commands.md R159, 60_exceptions.md R220). -/
def RefusesCall (s : State) (rest : List Turn) : Prop :=
  step s = .next ((s.took rest).tellCaller .invalidArgument)

/-- `t` is `s` after a halt with cause `c` and with `rest` as the turns to come: no register but `st`
and `cause`, no word and no byte has changed (60_exceptions.md R230). -/
structure HaltedIn (c : Cause) (rest : List Turn) (s t : State) : Prop where
  sched : t.sched = rest
  st : t.st = .halt
  cause : t.cause = c
  pos : t.pos = s.pos
  nValid : t.nValid = s.nValid
  n : t.n = s.n
  mode : t.mode = s.mode
  amount : t.amount = s.amount
  evt : t.evt = s.evt
  fno : t.fno = s.fno
  hold : t.hold = s.hold
  batchOk : t.batchOk = s.batchOk
  tx : t.tx = s.tx
  mem : t.mem = s.mem
  rxq : t.rxq = s.rxq

/-! ## Invariants of the registers -/

/-- The invariants of 10_state.md R44, numbered as there, with the ranges of R26, R30 and R35 and a
legal parameter record (00_scope.md R9). `I7` carries the modulus of `fno` (R46;
notes/assumptions/17.md). I1 holds by the type of `st`. -/
structure Inv (s : State) : Prop where
  /-- The parameters are legal. -/
  legal : s.cfg.legal = true
  /-- I2: a frame being received. -/
  rx : s.st = .rx → s.nValid = true ∧ 0 < s.fbytes ∧ s.pos < s.fbytes ∧ s.evt < s.amount
  /-- I3: between two frames. -/
  waiting : s.st = .wait →
    s.mode = .cont ∧ s.nValid = true ∧ 0 < s.fbytes ∧ 0 < s.amount ∧ s.evt < s.amount ∧ s.pos = 0
  /-- I4: a start command pending. -/
  command : s.st = .cmd →
    s.nValid = true ∧ 0 < s.fbytes ∧ s.evt = 0 ∧ s.pos = 0 ∧ (s.mode = .cont → 0 < s.amount)
  /-- I5: a cause stands exactly in `HALT`. -/
  cause : s.cause ≠ .none ↔ s.st = .halt
  /-- I6: a finished batch. -/
  batch : s.batchOk = true → (s.st = .idle ∨ s.st = .halt) ∧ s.mode = .bulk
  /-- I7: frames and events count alike in bulk mode. -/
  counts : s.mode = .bulk → (s.st = .cmd ∨ s.st = .rx) →
    s.fno = s.evt.toNat % 2 ^ s.cfg.fnoW ∧ s.frames = s.evt.toNat
  /-- I8: nothing runs unconfigured. -/
  unconfigured : s.nValid = false → s.st = .idle ∨ s.st = .halt
  /-- I9: the configured length is legal. -/
  length : s.n ≤ s.cfg.maximumSamples
  /-- `fno` is the number of completed frames in `FNO_W` bits (10_state.md R26, R46). -/
  frames : s.fno = s.frames % 2 ^ s.cfg.fnoW
  /-- `pos` is 0 wherever it is not used, but where a halt kept it (10_state.md R30, 42_frame_parser.md
  R187; notes/assumptions/16.md). -/
  position : s.st = .idle → s.pos = 0
  /-- Continuous mode never returns to `IDLE` (42_frame_parser.md R172). -/
  continuous : s.mode = .cont → s.st ≠ .idle

/-! ## Covered cells are written -/

/-- Every cell of frame `f` has been written. -/
def State.frameWritten (s : State) (f : Nat) : Prop :=
  ∀ c i, c < 2 → i < s.n → (memReadCell s.mem (cellAddr s.n f c i)).isSome = true

/-- Every frame a completion pulse covers has all its cells written, and so have the samples of the
current frame that lie before `pos` (20_memory.md R67, 10_state.md R32). -/
structure Covering (s : State) : Prop where
  /-- The frames completed since the start of an acquisition that runs or is continuous. -/
  past : (s.st = .cmd ∨ s.st = .rx ∨ s.st = .wait ∨ s.mode = .cont) →
    ∀ f, f < s.frames → f < 2 ^ s.cfg.fnoW → s.frameWritten f
  /-- The samples of the current frame already received. -/
  current : s.st = .rx → ∀ c i, c < 2 → i < s.n → off s.cfg.layout s.n c i + 1 < s.pos →
    (memReadCell s.mem (cellAddr s.n s.fno c i)).isSome = true
  /-- The frames of a finished batch. -/
  finished : s.batchOk = true →
    ∀ f, f < s.amount.toNat → f < 2 ^ s.cfg.fnoW → s.frameWritten f

/-! ## Runs of the parser -/

/-- The parser takes a list of bytes, one step each (42_frame_parser.md R190). -/
def receive (bytes : List Byte) (s : State) : State :=
  match bytes with
  | [] => s
  | b :: rest => receive rest (afpRxByte b s.quiet)

/-- The sample writes a run of `receive` makes, in order (20_memory.md R52). -/
def sampleWrites (bytes : List Byte) (s : State) : List SampleWrite :=
  match bytes with
  | [] => []
  | b :: rest => (afpRxByte b s.quiet).out.sample.toList ++ sampleWrites rest (afpRxByte b s.quiet)

/-- How many frames a run of `receive` hands over by `frame_done` (10_state.md R34). -/
def framesDone (bytes : List Byte) (s : State) : Nat :=
  match bytes with
  | [] => 0
  | b :: rest => (afpRxByte b s.quiet).out.frameDone.toList.length + framesDone rest (afpRxByte b s.quiet)

/-- One pull in continuous mode: the pull, then the start command if the pull asks for one
(42_frame_parser.md R177). -/
def pullOnce (s : State) : State :=
  let t := afpPull s.quiet
  if t.st = .cmd then afpIssue t.quiet else t

/-- Pull after pull, each answered by one frame's bytes (42_frame_parser.md R192). -/
def streamFrames (frames : List (List Byte)) (s : State) : State :=
  match frames with
  | [] => s
  | bytes :: rest => streamFrames rest (receive bytes (pullOnce s))

/-- How many frames `streamFrames` hands over by `frame_done` (42_frame_parser.md R192). -/
def streamFramesDone (frames : List (List Byte)) (s : State) : Nat :=
  match frames with
  | [] => 0
  | bytes :: rest => framesDone bytes (pullOnce s) + streamFramesDone rest (receive bytes (pullOnce s))

end Sys2Proof.Machine
end

