-- ==== Sys2Proof/Certificates/Slice0/Obligations.lean ====
section
/-! DEFINITION. The statements for the provers. Each formalises a rule of spec/ or a consequence of
several; OBLIGATIONS.json says which. -/

open Sys2Proof Sys2Proof.Machine

/-! ## The codec -/

/-- 40_encoder.md R101: the word is the sum of its three fields, its operand reduced modulo `2^52`. -/
def Obligations.EncodedWordIsTheSumOfItsFields : Prop :=
  (∀ (code : Code) (sub : SubIx) (operand : Int),
    ((cweEncode code sub operand).toNat : Int) =
      (code.toNat : Int) * 2 ^ 56 + (sub.toNat : Int) * 2 ^ 52 + operand % 2 ^ 52) ∧
  cweEncode 16 0 (-100) = 0x100FFFFFFFFFFF9C

/-- 40_encoder.md R105: the operand counts modulo `2^52`. -/
def Obligations.EncodingWrapsModuloTwoToThe52 : Prop :=
  (∀ (code : Code) (sub : SubIx) (operand k : Int),
    cweEncode code sub operand = cweEncode code sub (operand + k * 2 ^ 52)) ∧
  ∀ (code : Code) (sub : SubIx),
    (cweDecode (cweEncode code sub (2 ^ 52))).value = 0 ∧
    (cweDecode (cweEncode code sub (2 ^ 52 + 5))).value = 5 ∧
    (cweDecode (cweEncode code sub (-1))).value.toNat = 2 ^ 52 - 1 ∧
    (cweDecode (cweEncode code sub (-2 ^ 52))).value = 0

/-- 40_encoder.md R107: fields and words correspond one to one. -/
def Obligations.WordsAndFieldsCorrespondOneToOne : Prop :=
  (∀ w : Word64, ∃ f : CweFields, cwePack f.code f.sub f.value = w ∧
    ∀ g : CweFields, cwePack g.code g.sub g.value = w → g = f) ∧
  ∀ (code code' : Code) (sub sub' : SubIx) (operand operand' : Int),
    cweEncode code sub operand = cweEncode code' sub' operand' ↔
      code = code' ∧ sub = sub' ∧ ∃ k : Int, operand' = operand + k * 2 ^ 52

/-- 40_encoder.md R114: decoding an encoding gives the fields, encoding a decoding gives the word. -/
def Obligations.FieldsRoundTripThroughTheWord : Prop :=
  (∀ (code : Code) (sub : SubIx) (operand : Int),
    (cweDecode (cweEncode code sub operand)).code = code ∧
    (cweDecode (cweEncode code sub operand)).sub = sub ∧
    ((cweDecode (cweEncode code sub operand)).value.toNat : Int) = operand % 2 ^ 52) ∧
  ∀ w : Word64, cweEncode (cweDecode w).code (cweDecode w).sub ((cweDecode w).value.toNat : Int) = w

/-- 40_encoder.md R103: the port uses the low 52 bits of the value input, and agrees with the integer
formula for every width of at least 52. -/
def Obligations.ValuePortAgreesWithTheInteger : Prop :=
  ∀ (width : Nat) (code : Code) (sub : SubIx) (x : BitVec width), 52 ≤ width →
    cweEncodePort code sub x = cweEncode code sub x.toInt ∧
    (∀ y : BitVec width, y.setWidth 52 = x.setWidth 52 →
      cweEncodePort code sub y = cweEncodePort code sub x) ∧
    ∀ value : Value, cweEncodePort code sub value = cwePack code sub value

/-- 40_encoder.md R106, 30_encoding.md R80: the signed reading gives the operand exactly on
`[-2^51, 2^51)`, and the operand less `2^52` on `[2^51, 2^52)`, where the unsigned one gives it. -/
def Obligations.SignedReadingIsExactOnItsRange : Prop :=
  ∀ (code : Code) (sub : SubIx) (operand : Int),
    (((cweDecode (cweEncode code sub operand)).value.toNat : Int) = operand ↔
      0 ≤ operand ∧ operand < 2 ^ 52) ∧
    (signedValue (cweEncode code sub operand) = operand ↔
      -2 ^ 51 ≤ operand ∧ operand < 2 ^ 51) ∧
    (2 ^ 51 ≤ operand → operand < 2 ^ 52 →
      signedValue (cweEncode code sub operand) = operand - 2 ^ 52) ∧
    cweEncode code sub (2 ^ 51) = cweEncode code sub (-2 ^ 51) ∧
    (cweDecode (cweEncode code sub (2 ^ 51))).value = 0x8000000000000

/-- 40_encoder.md R108: which byte of the word goes where on the wire, in both orders. -/
def Obligations.BytesOfAWordOnTheWire : Prop :=
  (∀ (w : Word64) (k : Nat), k < 8 →
    (serWord .le w)[k]? = some (w.extractLsb' (8 * k) 8) ∧
    (serWord .be w)[k]? = some (w.extractLsb' (56 - 8 * k) 8)) ∧
  (∀ (order : ByteOrder) (w : Word64), (serWord order w).length = 8) ∧
  (∀ (code : Code) (sub : SubIx) (value : Value),
    (serWord .le (cwePack code sub value))[7]? = some code ∧
    (serWord .le (cwePack code sub value))[6]? = some (sub ++ value.extractLsb' 48 4) ∧
    (serWord .le (cwePack code sub value))[0]? = some (value.extractLsb' 0 8) ∧
    (serWord .be (cwePack code sub value))[0]? = some code ∧
    (serWord .be (cwePack code sub value))[1]? = some (sub ++ value.extractLsb' 48 4) ∧
    (serWord .be (cwePack code sub value))[7]? = some (value.extractLsb' 0 8)) ∧
  serWord .le 0x100FFFFFFFFFFF9C = [0x9C, 0xFF, 0xFF, 0xFF, 0xFF, 0xFF, 0x0F, 0x10] ∧
  serWord .be 0x100FFFFFFFFFFF9C = [0x10, 0x0F, 0xFF, 0xFF, 0xFF, 0xFF, 0xFF, 0x9C]

/-- 40_encoder.md R109: the deserialiser is the inverse of the serialiser, in both orders. -/
def Obligations.DeserialisingInvertsSerialising : Prop :=
  (∀ (order : ByteOrder) (w : Word64) (rest : List Byte),
    deserWord order (serWord order w ++ rest) = some (w, rest)) ∧
  (∀ (order : ByteOrder) (bytes rest : List Byte) (w : Word64),
    deserWord order bytes = some (w, rest) → bytes = serWord order w ++ rest) ∧
  ∀ b0 b1 b2 b3 b4 b5 b6 b7 : Byte,
    (∃ w : Word64, deserWord .le [b0, b1, b2, b3, b4, b5, b6, b7] = some (w, []) ∧
      w.toNat = b7.toNat * 2 ^ 56 + b6.toNat * 2 ^ 48 + b5.toNat * 2 ^ 40 + b4.toNat * 2 ^ 32 +
        b3.toNat * 2 ^ 24 + b2.toNat * 2 ^ 16 + b1.toNat * 2 ^ 8 + b0.toNat) ∧
    ∃ w : Word64, deserWord .be [b0, b1, b2, b3, b4, b5, b6, b7] = some (w, []) ∧
      w.toNat = b0.toNat * 2 ^ 56 + b1.toNat * 2 ^ 48 + b2.toNat * 2 ^ 40 + b3.toNat * 2 ^ 32 +
        b4.toNat * 2 ^ 24 + b5.toNat * 2 ^ 16 + b6.toNat * 2 ^ 8 + b7.toNat

/-- 30_encoding.md R70, R71, R83, 40_encoder.md R108, R112: every command round-trips through its
eight bytes in both wire orders, and whatever decodes is the encoding of what it decodes to. -/
def Obligations.CommandsRoundTripOnTheWire : Prop :=
  (∀ (order : ByteOrder) (i : Instr) (rest : List Byte),
    decodeBytes order (encodeBytes order i ++ rest) = .ok (i, rest)) ∧
  ∀ (order : ByteOrder) (bytes rest : List Byte) (i : Instr),
    decodeBytes order bytes = .ok (i, rest) → bytes = encodeBytes order i ++ rest

/-- 40_encoder.md R113, 30_encoding.md R84, R88: the decoder answers a command exactly on the assigned
words, and refuses by name. -/
def Obligations.DecoderRefusesExactlyTheUnassigned : Prop :=
  (∀ w : Word64, (∃ i, decodeWord w = .ok i) ↔ wordClass w = .assigned (cweDecode w).code) ∧
  (∀ w : Word64, wordClass w = .unassigned →
    31 < (cweDecode w).code.toNat ∧
      decodeWord w = .error (.unassignedCode (cweDecode w).code)) ∧
  ∀ (order : ByteOrder) (bytes : List Byte),
    decodeBytes order bytes = .error .shortWord ↔ bytes.length < 8

/-- 41_commands.md R125, R136, R148, R151: words written out bit by bit decode to their commands. -/
def Obligations.ListedWordsDecodeToTheirCommands : Prop :=
  decodeWord 0b0000010100010000000000000000000000000000000000000000000000000001 = .ok (.setNeg 1 1) ∧
  decodeWord 0b0001000000001111111111111111111111111111111111111111111110011100 =
    .ok (.setTrgLevel 0 0xFFFFFFFFFFF9C) ∧
  decodeWord 0b0001110000000000000000000000000100010010001101000101011001111000 =
    .ok (.setBin 0 0x112345678) ∧
  decodeWord 0b0001111100000000000000000000000000000000000000000000000000000101 = .ok (.startAcq 0 5) ∧
  decodeWord 0b0010000000000000000000000000000000000000000000000000000000000000 =
    .error (.unassignedCode 32)

/-- 30_encoding.md R81, 41_commands.md R148, R153: the bin index and the weight each fill their place. The
last clause, that `2^32` more of weight is the next bin, is the model's choice of the integer sum where
the rule has an or (notes/assumptions/23.md); the spec gives it for bin 0 (95_test_vectors.md E25). -/
def Obligations.SpectrumBinOperandPacksIndexAndWeight : Prop :=
  ∀ (index : Nat) (weight : Int), index < 4096 → 0 ≤ weight → weight < 2 ^ 32 →
    (((valueField (binOperand index weight)).extractLsb' 32 20).toNat = index ∧
     (((valueField (binOperand index weight)).extractLsb' 0 32).toNat : Int) = weight ∧
     (valueField (binOperand index weight)).extractLsb' 44 8 = 0 ∧
     ((cweEncode 28 0 (binOperand index weight)).toNat : Int) =
       0x1C00000000000000 + (index : Int) * 2 ^ 32 + weight) ∧
    binOperand index (weight + 2 ^ 32) = binOperand (index + 1) weight

/-! ## The commands -/

/-- 41_commands.md R120 to R123, R131, R132, R139, R140, R147, R149 to R151: the commands that reset
something in the device, that make it answer, and that start or stop something in it. -/
def Obligations.ResetReadAndStartCommandsSendTheirWords : Prop :=
  ∀ (sub : SubIx) (value : Value),
    Sends (.rstHist sub value) 0 sub.toNat value.toNat ∧
    Sends (.rstTimer sub value) 1 sub.toNat value.toNat ∧
    Sends (.rstOsc sub value) 2 sub.toNat value.toNat ∧
    Sends (.rstGen sub value) 3 sub.toNat value.toNat ∧
    Sends (.rdStatus sub value) 11 sub.toNat value.toNat ∧
    Sends (.rdHist sub value) 12 sub.toNat value.toNat ∧
    Sends (.startOsc sub value) 19 sub.toNat value.toNat ∧
    Sends (.rdOsc sub value) 20 sub.toNat value.toNat ∧
    Sends (.rstSpec sub value) 27 sub.toNat value.toNat ∧
    Sends (.startGen sub value) 29 sub.toNat value.toNat ∧
    Sends (.stopGen sub value) 30 sub.toNat value.toNat ∧
    Sends (.startAcq sub value) 31 sub.toNat value.toNat

/-- 41_commands.md R124 to R130: the commands of the rate, the negators, the PHA and the timer. -/
def Obligations.SettingCommandsSendTheirWords : Prop :=
  ∀ (sub : SubIx) (value : Value),
    Sends (.setRate sub value) 4 sub.toNat value.toNat ∧
    Sends (.setNeg sub value) 5 sub.toNat value.toNat ∧
    Sends (.setPhaDelay sub value) 6 sub.toNat value.toNat ∧
    Sends (.setPhaMin sub value) 7 sub.toNat value.toNat ∧
    Sends (.setPhaMax sub value) 8 sub.toNat value.toNat ∧
    Sends (.setTimer sub value) 9 sub.toNat value.toNat ∧
    Sends (.setTimerMode sub value) 10 sub.toNat value.toNat

/-- 41_commands.md R133 to R138: the commands of the trigger and of the sample counts. -/
def Obligations.TriggerCommandsSendTheirWords : Prop :=
  ∀ (sub : SubIx) (value : Value),
    Sends (.setTrgSrc sub value) 13 sub.toNat value.toNat ∧
    Sends (.setTrgSlope sub value) 14 sub.toNat value.toNat ∧
    Sends (.setTrgMode sub value) 15 sub.toNat value.toNat ∧
    Sends (.setTrgLevel sub value) 16 sub.toNat value.toNat ∧
    Sends (.setPre sub value) 17 sub.toNat value.toNat ∧
    Sends (.setTot sub value) 18 sub.toNat value.toNat

/-- 41_commands.md R141 to R146, R148: the commands of the generator, the limits and the spectrum. -/
def Obligations.GeneratorCommandsSendTheirWords : Prop :=
  ∀ (sub : SubIx) (value : Value),
    Sends (.setFall sub value) 21 sub.toNat value.toNat ∧
    Sends (.setRise sub value) 22 sub.toNat value.toNat ∧
    Sends (.setLower sub value) 23 sub.toNat value.toNat ∧
    Sends (.setUpper sub value) 24 sub.toNat value.toNat ∧
    Sends (.setGenRate sub value) 25 sub.toNat value.toNat ∧
    Sends (.setDist sub value) 26 sub.toNat value.toNat ∧
    Sends (.setBin sub value) 28 sub.toNat value.toNat

/-- 40_encoder.md R110, 10_state.md R27: what a command leaves unchanged, in every state. -/
def Obligations.CommandsChangeNothingButTheTransmitHistory : Prop :=
  ∀ (i : Instr) (s t : State), exec i s = .next t →
    t.st = s.st ∧ t.pos = s.pos ∧ t.nValid = s.nValid ∧ t.n = s.n ∧ t.mode = s.mode ∧
    t.amount = s.amount ∧ t.evt = s.evt ∧ t.fno = s.fno ∧ t.hold = s.hold ∧
    t.batchOk = s.batchOk ∧ t.cause = s.cause ∧ t.cfg = s.cfg ∧ t.sched = s.sched ∧
    t.host = s.host ∧ t.call = s.call ∧ t.rxq = s.rxq ∧ t.frames = s.frames ∧ t.freeCtr = s.freeCtr ∧
    (∀ a, memByte t.mem a = memByte s.mem a) ∧
    ((s.st = .idle ∧ t.tx = s.tx ++ [encode i]) ∨ (s.st ≠ .idle ∧ t.tx = s.tx))

/-- 40_encoder.md R100, R110, 60_exceptions.md R233: outside `IDLE` a command is not enabled: it changes
nothing but what the encoder shows, and stays the host's next operation. That this is so in `HALT` too,
with no reject, and that the waiting operation stands in a list are the model's choices
(notes/assumptions/3.md); in `HALT` a part of a caller-level operation fails instead (32.md). -/
def Obligations.CommandsWaitOutsideIdle : Prop :=
  (∀ (i : Instr) (s : State), s.st ≠ .idle →
    exec i s = .next { s with out := { s.out with word := some (encode i) } }) ∧
  ∀ (s : State) (rest : List Turn) (ops : List HostOp) (code : Code) (sub : SubIx) (operand : Int),
    s.sched = .host :: rest → s.st ≠ .idle →
    ((s.call = [] ∧ s.host = .send code sub operand :: ops) ∨
      (s.call = .send code sub operand :: ops ∧ s.st ≠ .halt)) →
    step s = .next { s.took rest with
      out := { quietOutputs with word := some (cweEncode code sub operand) } }

/-- 40_encoder.md R110, 00_scope.md R11: a step in which the host sends runs the command its word decodes
to, a placed word is the next command, and a host turn runs any operation that has not to wait as at its
port, be it pending or a part of the call in progress. That the step decodes the packed word (notes/assumptions/31.md), where the
host's operations stand (3.md and 32.md) and how a word is placed (4.md) are the model's choices. -/
def Obligations.StepRunsTheDecodedCommand : Prop :=
  (∀ (s : State) (rest : List Turn) (ops : List HostOp) (code : Code) (sub : SubIx) (operand : Int)
      (i : Instr),
    s.sched = .host :: rest → s.st = .idle → decodeWord (cweEncode code sub operand) = .ok i →
    (s.call = [] → s.host = .send code sub operand :: ops →
      step s = exec i { s.took rest with host := ops }) ∧
    (s.call = .send code sub operand :: ops → step s = exec i { s.took rest with call := ops })) ∧
  (∀ (s : State) (i : Instr), step (s.withFetchWord 64 (encode i).toNat) = exec i s.quiet) ∧
  ∀ (s : State) (rest : List Turn) (ops : List HostOp) (op : HostOp),
    s.sched = .host :: rest → (∀ code sub operand, op ≠ .send code sub operand) →
    op ≠ .awaitBatch → op ≠ .awaitFrame →
    (s.call = [] → s.host = op :: ops →
      step s = step { s with sched := .strobe op :: rest, host := ops }) ∧
    (s.call = op :: ops → s.st ≠ .halt →
      step s = step { s with sched := .strobe op :: rest, call := ops })

/-- 30_encoding.md R84, 40_encoder.md R102: a command with an unassigned code is packed and sent too. -/
def Obligations.UnassignedCodesAreSentUnchanged : Prop :=
  ∀ (s : State) (rest : List Turn) (ops : List HostOp) (code : Code) (sub : SubIx) (operand : Int),
    s.sched = .host :: rest → s.call = [] → s.host = .send code sub operand :: ops → s.st = .idle →
    31 < code.toNat →
    ∃ w : Word64, cweDecode w = ⟨code, sub, valueField operand⟩ ∧
      step s = .next { s.took rest with
        host := ops, tx := s.tx ++ [w], out := { quietOutputs with word := some w, txWord := some w } }

/-- 40_encoder.md R111, 60_exceptions.md R220: a transmit error while a host command is offered in `IDLE`
halts, sends nothing and is the caller's connection error; with no command offered it does nothing.
That the command leaves the pending list is the model's choice (notes/assumptions/19.md), and so is the
list of the operation that is given up as a whole (32.md). -/
def Obligations.FailedSendHaltsAndSendsNothing : Prop :=
  ∀ (s : State) (rest : List Turn), s.sched = .txErr :: rest → s.st = .idle →
    (∀ (ops : List HostOp) (code : Code) (sub : SubIx) (operand : Int),
      s.call = [] → s.host = .send code sub operand :: ops →
      step s = .next { s.took rest with
        host := ops, call := [], st := .halt, cause := .ioTx
        out := { quietOutputs with
          word := some (cweEncode code sub operand), callerError := some .connectionError } }) ∧
    (∀ (ops : List HostOp) (code : Code) (sub : SubIx) (operand : Int),
      s.call = .send code sub operand :: ops →
      step s = .next { s.took rest with
        call := [], st := .halt, cause := .ioTx
        out := { quietOutputs with
          word := some (cweEncode code sub operand), callerError := some .connectionError } }) ∧
    ((∀ (code : Code) (sub : SubIx) (operand : Int), s.nextOp ≠ some (.send code sub operand)) →
      step s = .next (s.took rest))

/-- 40_encoder.md R100, R101: an evaluation of `CWE.ENCODE` is a step that shows the word and changes
nothing else, and in a clock cycle `out_valid = in_valid` and `word_o` is the word of the inputs,
whatever the state of the parser, with `VALUE_IN_W` bits of the value port. That the first of the steps
of a cycle shows it, while later ones need not, is the model's choice (notes/assumptions/15.md and
20.md), and so is that an evaluation in `HALT` pulses no reject (27.md). -/
def Obligations.EncoderShowsTheWordOfItsInputs : Prop :=
  ∀ (s : State) (rest : List Turn),
    (∀ (code : Code) (sub : SubIx) (operand : Int),
      s.sched = .strobe (.encode code sub operand) :: rest →
      step s = .next { s.took rest with
        out := { quietOutputs with word := some (cweEncode code sub operand) } }) ∧
    ∀ p : PortInputs, s.sched = .clock p :: rest →
      ∃ t, step s = .next t ∧ t.outValid = p.inValid ∧ t.tx = s.tx ∧ t.st = s.st ∧
        (p.inValid = true → ∃ w : Word64, t.out.word = some w ∧
          w = cweEncodePort p.cmdI p.subI (BitVec.ofNat s.cfg.valueInW p.valueI))

/-! ## The frame parser -/

/-- 42_frame_parser.md R173: `AFP.CFG v`. -/
def Obligations.ConfigurationIsCheckedThenTakesEffect : Prop :=
  ∀ (s : State) (rest : List Turn) (v : Nat), s.sched = .strobe (.cfg v) :: rest →
    (s.st = .halt → step s = .next ((s.took rest).reject .eHalted)) ∧
    (s.st ≠ .halt → s.st ≠ .idle → step s = .next ((s.took rest).reject .eBusy)) ∧
    (s.st = .idle → s.cfg.maximumSamples < v → step s = .next ((s.took rest).reject .eRange)) ∧
    (s.st = .idle → v ≤ s.cfg.maximumSamples →
      ∃ t, step s = .next t ∧ t = { s.took rest with n := v, nValid := true, batchOk := false } ∧
        t.sbytes = 4 * v ∧ t.pbytes = 4 * s.cfg.paddingCount ∧
        t.fbytes = 4 * v + 4 * s.cfg.paddingCount)

/-- 42_frame_parser.md R174: `AFP.START_BULK a`. The field `frames` is the model's own count
(notes/assumptions/13.md). -/
def Obligations.BulkStartIsCheckedThenOffersTheCommand : Prop :=
  ∀ (s : State) (rest : List Turn) (a : Count), s.sched = .strobe (.startBulk a) :: rest →
    (s.st = .halt → step s = .next ((s.took rest).reject .eHalted)) ∧
    (s.st ≠ .halt → s.st ≠ .idle → step s = .next ((s.took rest).reject .eBusy)) ∧
    (s.st = .idle → s.nValid = false → step s = .next ((s.took rest).reject .eUnconfigured)) ∧
    (s.st = .idle → s.nValid = true → s.n = 0 → s.cfg.paddingCount = 0 →
      step s = .next ((s.took rest).reject .eEmptyFrame)) ∧
    (s.st = .idle → s.nValid = true → 0 < 4 * s.n + 4 * s.cfg.paddingCount →
      ∃ t, step s = .next t ∧
        t = { s.took rest with
          mode := .bulk, amount := a, evt := 0, fno := 0, pos := 0, batchOk := false, st := .cmd
          frames := 0 } ∧
        t.cmdValid = true ∧ t.cmdValue = a)

/-- 42_frame_parser.md R175: `AFP.START_CONT a`. The field `frames` is the model's own count
(notes/assumptions/13.md). -/
def Obligations.ContinuousStartIsCheckedThenWaits : Prop :=
  ∀ (s : State) (rest : List Turn) (a : Count), s.sched = .strobe (.startCont a) :: rest →
    (s.st = .halt → step s = .next ((s.took rest).reject .eHalted)) ∧
    (s.st ≠ .halt → s.st ≠ .idle → step s = .next ((s.took rest).reject .eBusy)) ∧
    (s.st = .idle → s.nValid = false → step s = .next ((s.took rest).reject .eUnconfigured)) ∧
    (s.st = .idle → s.nValid = true → s.n = 0 → s.cfg.paddingCount = 0 →
      step s = .next ((s.took rest).reject .eEmptyFrame)) ∧
    (s.st = .idle → s.nValid = true → 0 < 4 * s.n + 4 * s.cfg.paddingCount → a = 0 →
      step s = .next ((s.took rest).reject .eZeroBurst)) ∧
    (s.st = .idle → s.nValid = true → 0 < 4 * s.n + 4 * s.cfg.paddingCount → a ≠ 0 →
      step s = .next { s.took rest with
        mode := .cont, amount := a, evt := 0, fno := 0, pos := 0, batchOk := false, st := .wait
        frames := 0 })

/-- 42_frame_parser.md R176: `AFP.ISSUE`. -/
def Obligations.IssueSendsTheStartCommand : Prop :=
  ∀ (s : State) (rest : List Turn), s.sched = .sequencer :: rest →
    (s.st = .cmd → ∃ w : Word64, w.toNat = 0x1F00000000000000 + s.amount.toNat ∧
      ((s.mode = .bulk ∧ s.amount = 0) →
        step s = .next { s.took rest with
          tx := s.tx ++ [w], st := .idle, batchOk := true
          out := { quietOutputs with word := some w, txWord := some w, batchDone := true } }) ∧
      (¬(s.mode = .bulk ∧ s.amount = 0) →
        step s = .next { s.took rest with
          tx := s.tx ++ [w], st := .rx, pos := 0
          out := { quietOutputs with word := some w, txWord := some w } })) ∧
    (s.st ≠ .cmd → step s = .next (s.took rest))

/-- 42_frame_parser.md R177: `AFP.PULL`. -/
def Obligations.PullAsksForACommandAtABurstBoundary : Prop :=
  ∀ (s : State) (rest : List Turn), s.sched = .strobe .pull :: rest →
    (s.st = .halt → step s = .next ((s.took rest).reject .eHalted)) ∧
    (s.st ≠ .halt → s.st ≠ .wait → step s = .next ((s.took rest).reject .eNotWaiting)) ∧
    (s.st = .wait → s.evt = 0 → step s = .next { s.took rest with st := .cmd }) ∧
    (s.st = .wait → s.evt ≠ 0 → step s = .next { s.took rest with st := .rx, pos := 0 })

/-- 42_frame_parser.md R179, 92_eei_decisions.md D24: a byte is taken in `RX` only; elsewhere it stays
with the session. -/
def Obligations.BytesAreTakenInReceiveOnly : Prop :=
  ∀ (s : State) (rest : List Turn) (b : Byte) (bytes : List Byte),
    s.sched = .device :: rest → s.rxq = b :: bytes →
    (s.st = .rx → step s = .next (afpRxByte b { s.took rest with rxq := bytes })) ∧
    (s.st ≠ .rx → step s = .next (s.took rest))

/-- 42_frame_parser.md R182, R183: the first byte of a sample is held, the second stores the sample, as
it is, and no other byte of `OUT` changes. -/
def Obligations.SampleBytesAreHeldThenStored : Prop :=
  (∀ (s : State) (b : Byte), s.st = .rx → s.pos < s.sbytes → s.pos % 2 = 0 →
    afpRxByte b s = { s with hold := b, pos := s.pos + 1 }) ∧
  ∀ (s t : State) (b : Byte) (c i : Nat) (v : Sample),
    s.st = .rx → s.pos < s.sbytes → s.pos % 2 = 1 → loc s.cfg.layout s.n s.pos = (c, i) →
    v = (match s.cfg.sampleOrder with
      | .le => b ++ s.hold
      | .be => s.hold ++ b) →
    t = afpRxByte b s →
    memReadCell t.mem (cellAddr s.n s.fno c i) = some v ∧
    (∀ a, a ≠ 2 * cellAddr s.n s.fno c i → a ≠ 2 * cellAddr s.n s.fno c i + 1 →
      memByte t.mem a = memByte s.mem a) ∧
    t.out.sample = some ⟨s.fno, c, i, v⟩ ∧ t.hold = s.hold ∧ c < 2 ∧ i < s.n ∧
    (v.toNat < 2 ^ 15 → sampleValue v = v.toNat) ∧
    (2 ^ 15 ≤ v.toNat → sampleValue v = (v.toNat : Int) - 2 ^ 16)

/-- 42_frame_parser.md R184: a padding byte is dropped, whatever it is. -/
def Obligations.PaddingBytesAreDropped : Prop :=
  ∀ (s : State) (b b' : Byte), s.st = .rx → s.sbytes ≤ s.pos → s.pos < s.fbytes →
    afpRxByte b s = afpRxByte b' s ∧ (afpRxByte b s).hold = s.hold ∧ (afpRxByte b s).mem = s.mem ∧
    (afpRxByte b s).out.sample = s.out.sample ∧ (afpRxByte b s).n = s.n ∧
    (afpRxByte b s).nValid = s.nValid ∧ (afpRxByte b s).mode = s.mode ∧
    (afpRxByte b s).amount = s.amount ∧ (afpRxByte b s).cause = s.cause ∧
    (afpRxByte b s).tx = s.tx ∧
    (s.pos + 1 < s.fbytes → afpRxByte b s = { s with pos := s.pos + 1 })

/-- 42_frame_parser.md R185: the end of a frame in bulk mode. -/
def Obligations.BulkFrameEnds : Prop :=
  ∀ (s t : State) (b : Byte), s.st = .rx → s.mode = .bulk → s.pos + 1 = s.fbytes →
    t = afpRxByte b s →
    t.pos = 0 ∧ t.fno = (s.fno + 1) % 2 ^ s.cfg.fnoW ∧ t.evt = s.evt + 1 ∧ t.out.evtDone = true ∧
    (s.evt + 1 = s.amount → t.st = .idle ∧ t.batchOk = true ∧ t.out.batchDone = true) ∧
    (s.evt + 1 ≠ s.amount →
      t.st = .rx ∧ t.batchOk = s.batchOk ∧ t.out.batchDone = s.out.batchDone) ∧
    (s.evt + 1 = s.amount → s.amount ≠ 0 → s.fno = s.evt.toNat →
      s.amount.toNat < 2 ^ s.cfg.fnoW → t.evt = s.amount ∧ t.fno = s.amount.toNat) ∧
    t.nValid = s.nValid ∧ t.n = s.n ∧ t.mode = s.mode ∧ t.amount = s.amount ∧ t.cause = s.cause ∧
    t.tx = s.tx ∧ t.hold = s.hold

/-- 42_frame_parser.md R186, 20_memory.md R67: the end of a frame in continuous mode; the frame its
`frame_done` hands over is covered, whether `fno` wraps or not. -/
def Obligations.ContinuousFrameEnds : Prop :=
  ∀ (s t : State) (b : Byte), s.st = .rx → s.mode = .cont → s.pos + 1 = s.fbytes →
    t = afpRxByte b s →
    t.pos = 0 ∧ t.fno = (s.fno + 1) % 2 ^ s.cfg.fnoW ∧ t.out.evtDone = true ∧
    t.out.frameDone = some s.fno ∧ t.st = .wait ∧
    (s.evt + 1 = s.amount → t.evt = 0) ∧ (s.evt + 1 ≠ s.amount → t.evt = s.evt + 1) ∧
    (Covering s → ∀ c i, c < 2 → i < s.n →
      (memReadCell t.mem (cellAddr s.n s.fno c i)).isSome = true) ∧
    (Inv s → t.covered s.fno = true) ∧
    t.nValid = s.nValid ∧ t.n = s.n ∧ t.mode = s.mode ∧ t.amount = s.amount ∧ t.cause = s.cause ∧
    t.batchOk = s.batchOk ∧ t.tx = s.tx ∧ t.hold = s.hold

/-- 42_frame_parser.md R187, R188, 60_exceptions.md R230: `AFP.RXERR` and `AFP.TXERR` write `st` and `cause`
and nothing else. -/
def Obligations.ConnectionErrorsHaltWhereTheyAreNoticed : Prop :=
  ∀ (s : State) (rest : List Turn),
    (s.sched = .rxErr :: rest → s.st = .rx →
      step s = .next { s.took rest with st := .halt, cause := .ioRx }) ∧
    (s.sched = .rxErr :: rest → s.st ≠ .rx → step s = .next (s.took rest)) ∧
    (s.sched = .txErr :: rest → s.st = .cmd →
      step s = .next { s.took rest with st := .halt, cause := .ioTx }) ∧
    (s.sched = .txErr :: rest → s.st ≠ .cmd → s.st ≠ .idle → step s = .next (s.took rest))

/-- 42_frame_parser.md R189: `AFP.CANCEL`. -/
def Obligations.CancelClosesEverySessionButAHaltedOne : Prop :=
  ∀ (s : State) (rest : List Turn), s.sched = .strobe .cancel :: rest →
    (s.st = .halt → step s = .next ((s.took rest).reject .eHalted)) ∧
    (s.st ≠ .halt → step s = .next { s.took rest with st := .halt, cause := .closed })

/-- 10_state.md R34, 60_exceptions.md R230: the level outputs as functions of the state, those after a halt
for every cause (five of them low, `batch_ok` and `rej` as they were), and the numeric codes of 10_state.md R29, R33, R37 and 60_exceptions.md R222. -/
def Obligations.OutputsFollowTheState : Prop :=
  (∀ s : State,
    (s.busy = true ↔ s.st = .cmd ∨ s.st = .rx ∨ s.st = .wait) ∧ (s.halted = true ↔ s.st = .halt) ∧
    (s.rxReady = true ↔ s.st = .rx) ∧ (s.cmdValid = true ↔ s.st = .cmd) ∧
    (s.hostCmdReady = true ↔ s.st = .idle) ∧ (s.waiting = true ↔ s.st = .wait) ∧
    s.batchOkO = s.batchOk ∧ (s.rej = true ↔ s.rejCodeO ≠ 0)) ∧
  (∀ (s : State) (c : Cause),
    (s.raiseHalt c).halted = true ∧ (s.raiseHalt c).causeO = causeCode c ∧
    (s.raiseHalt c).busy = false ∧ (s.raiseHalt c).rxReady = false ∧
    (s.raiseHalt c).cmdValid = false ∧ (s.raiseHalt c).hostCmdReady = false ∧
    (s.raiseHalt c).waiting = false ∧ (s.raiseHalt c).batchOkO = s.batchOk ∧
    (s.raiseHalt c).rejCodeO = s.rejCodeO) ∧
  [SeqState.idle, .cmd, .rx, .wait, .halt].map seqCode = [0, 1, 2, 3, 4] ∧
  [Mode.bulk, .cont].map modeCode = [0, 1] ∧
  [Cause.none, .ioRx, .ioTx, .closed].map causeCode = [0, 1, 2, 3] ∧
  [RejCode.eNone, .eBusy, .eUnconfigured, .eRange, .eEmptyFrame, .eZeroBurst, .eNotWaiting,
    .eHalted].map rejectNumber = [0, 1, 2, 3, 4, 5, 6, 7]

/-- 10_state.md R43, R45, 70_reset_and_hazards.md R250 to R252: `RESET` from every state, with the new
session it stands for, and the registers of the state right after reset. That the turns, the counter and
the host's other operations stay, and that a caller-level operation in progress is given up, are the
model's choices (notes/assumptions/14.md and 32.md). -/
def Obligations.ResetGivesEveryRegisterItsValue : Prop :=
  (∀ (s : State) (rest : List Turn), s.sched = .rst :: rest →
    step s = .next { s.took rest with
      st := .idle, pos := 0, nValid := false, n := 0, mode := .bulk, amount := 0, evt := 0, fno := 0
      hold := 0, batchOk := false, cause := .none, tx := [], rxq := [], call := [], frames := 0 }) ∧
  State.reset.st = .idle ∧ State.reset.pos = 0 ∧ State.reset.nValid = false ∧ State.reset.n = 0 ∧
  State.reset.mode = .bulk ∧ State.reset.amount = 0 ∧ State.reset.evt = 0 ∧ State.reset.fno = 0 ∧
  State.reset.hold = 0 ∧ State.reset.batchOk = false ∧ State.reset.cause = .none ∧
  State.reset.tx = [] ∧ State.reset.out = quietOutputs

/-- 60_exceptions.md R222: a rejected host operation changes nothing but the reject pulse. That no command,
evaluation or read is among the operations that can be rejected, in `HALT` too, is the model's reading
(notes/assumptions/3.md and 27.md). -/
def Obligations.RejectsChangeNothing : Prop :=
  ∀ (s t : State) (rest : List Turn) (op : HostOp),
    s.sched = .strobe op :: rest → step s = .next t → t.out.rejCode ≠ .eNone →
    ((∃ v, op = .cfg v) ∨ (∃ a, op = .startBulk a) ∨ (∃ a, op = .startCont a) ∨ op = .pull ∨
      op = .cancel) ∧
    t = (s.took rest).reject t.out.rejCode

/-- 60_exceptions.md R231, R233: only `RESET` leaves `HALT`, and until then the first cause stands. -/
def Obligations.OnlyResetLeavesHalt : Prop :=
  ∀ s t : State, s.st = .halt → step s = .next t →
    (t.st = .halt ∧ t.cause = s.cause ∧ t.pos = s.pos ∧ t.nValid = s.nValid ∧ t.n = s.n ∧
      t.mode = s.mode ∧ t.amount = s.amount ∧ t.evt = s.evt ∧ t.fno = s.fno ∧ t.hold = s.hold ∧
      t.batchOk = s.batchOk ∧ t.tx = s.tx ∧ t.mem = s.mem ∧
      (t.rxq = s.rxq ∨
        ∃ bytes rest, s.sched = .arrive bytes :: rest ∧ t.rxq = s.rxq ++ bytes)) ∨
    (∃ rest, s.sched = .rst :: rest ∧ t.st = .idle ∧ t.cause = .none ∧ t.nValid = false)

/-- 60_exceptions.md R228: in one clock cycle `rst` wins over everything, a cancel wins over all the rest,
and an error wins over the transfer of the same cycle, whatever the other inputs are. A cycle with none
of them makes the transfer the state allows, and then the operations of `cfg_we`, `start_we` and `pull`
are next, in this order, each at its port. That a cycle takes one step more than its inputs, and that
`rx_data` is the first byte of the session, are the model's choice (notes/assumptions/20.md). -/
def Obligations.ErrorsAndCancelWinInAClockCycle : Prop :=
  ∀ (s : State) (rest : List Turn) (p : PortInputs), s.sched = .clock p :: rest →
    (p.rst = true → core.run 2 s = .next ({ s with sched := rest } : State).resetBlock) ∧
    (p.rst = false → p.cancel = true → s.st ≠ .halt →
      ∃ t, core.run (1 + (clockTurns p).length) s = .next t ∧ HaltedIn .closed rest s t) ∧
    (p.rst = false → p.cancel = false → p.rxErr = true → s.st = .rx →
      ∃ t, core.run (1 + (clockTurns p).length) s = .next t ∧ HaltedIn .ioRx rest s t) ∧
    (p.rst = false → p.cancel = false → p.txErr = true →
      (s.st = .cmd ∨ (s.st = .idle ∧ p.inValid = true)) →
      ∃ t, core.run (1 + (clockTurns p).length) s = .next t ∧ HaltedIn .ioTx rest s t) ∧
    (p.rst = false → p.cancel = false → p.rxErr = false → p.txErr = false →
      ∀ after : List Turn,
      after = (if p.cfgWe then [.strobe (.cfg p.cfgN)] else []) ++
        (if p.startWe then
          match p.startMode with
          | .bulk => [.strobe (.startBulk p.startAmount)]
          | .cont => [.strobe (.startCont p.startAmount)]
        else []) ++
        (if p.pull then [.strobe .pull] else []) ++ rest →
      (∀ (b : Byte) (bytes : List Byte), s.st = .rx → p.rxValid = true → s.rxq = b :: bytes →
        core.run 2 s = .next (afpRxByte b { s.took after with rxq := bytes })) ∧
      (s.st = .cmd → p.txReady = true → core.run 2 s = .next (afpIssue (s.took after))) ∧
      (s.st = .idle → p.inValid = true → p.txReady = true → ∃ w : Word64,
        w = cweEncodePort p.cmdI p.subI (BitVec.ofNat s.cfg.valueInW p.valueI) ∧
        core.run 2 s = .next { s.took after with
          tx := s.tx ++ [w], out := { quietOutputs with word := some w, txWord := some w } }) ∧
      ((s.st = .rx → p.rxValid = false ∨ s.rxq = []) → (s.st = .cmd → p.txReady = false) →
        (s.st = .idle → p.inValid = false ∨ p.txReady = false) →
        core.run 2 s = .next (s.took after)))

/-! ## Invariants -/

/-- 10_state.md R44, R45, 20_memory.md R67: the reset state meets the invariants, for every choice of the
open parameters, its memory is canonical and no frame is covered. -/
def Obligations.ResetStateMeetsTheInvariants : Prop :=
  Inv State.reset ∧ Covering State.reset ∧ Memory.wf State.reset.mem = true ∧
    ∀ f, State.reset.covered f = false

/-- 10_state.md R44: every step keeps the invariants. -/
def Obligations.StepsKeepTheInvariants : Prop :=
  ∀ s t : State, Inv s → step s = .next t → Inv t

/-- notes/assumptions/10.md, the model's choice of a canonical memory: every step keeps it. -/
def Obligations.StepsKeepMemoryCanonical : Prop :=
  ∀ s t : State, Memory.wf s.mem = true → step s = .next t → Memory.wf t.mem = true

/-- 20_memory.md R67, 10_state.md R32: every step keeps every covered cell written. -/
def Obligations.StepsKeepCoveredCellsWritten : Prop :=
  ∀ s t : State, Inv s → Covering s → step s = .next t → Covering t

/-- 20_memory.md R67, 10_state.md R32: the consumer reads a covered cell as it was written. Which frames
count as covered after a halt in continuous mode and after `fno` has wrapped is the model's reading
(notes/assumptions/13.md). -/
def Obligations.CoveredCellsReadAsWritten : Prop :=
  ∀ (s : State) (f c i : Nat), Covering s → s.covered f = true → c < 2 → i < s.n →
    ∃ v, memReadCell s.mem (cellAddr s.n f c i) = some v ∧
      consumerRead f c i s = .next { s with out := { s.out with readData := some v } }

/-- The model's choice, notes/assumptions/11.md and 25.md: a read that no completion pulse covers
answers a free value and changes nothing else of the blocks; a read that names no cell faults. -/
def Obligations.UncoveredReadsAnswerAFreeValue : Prop :=
  ∀ (s : State) (f c i : Nat),
    (s.covered f = false → c < 2 → i < s.n →
      consumerRead f c i s = .next { s with
        out := { s.out with readData := some (Config.undefinedSample s.freeCtr) }
        freeCtr := s.freeCtr + 1 }) ∧
    (¬(c < 2 ∧ i < s.n) → consumerRead f c i s = .fault .noSuchCell)

/-! ## Rules of the whole machine -/

/-- 20_memory.md R51, R60, R66: `TX` grows by one whole word at most, in `IDLE` or `CMD` only, and only
`RESET` empties it. -/
def Obligations.TransmitHistoryGrowsByWholeWords : Prop :=
  ∀ s t : State, step s = .next t →
    t.tx = s.tx ∨
    (∃ w : Word64, t.tx = s.tx ++ [w] ∧ (s.st = .idle ∨ (s.st = .cmd ∧
      w.toNat = 0x1F00000000000000 + s.amount.toNat))) ∨
    (t.tx = [] ∧ ∃ rest, s.sched = .rst :: rest)

/-- 20_memory.md R52, R60: `OUT` changes by one whole cell at most, in the sample region of a frame
being received only. -/
def Obligations.OutChangesByOneSampleOnly : Prop :=
  ∀ s t : State, step s = .next t →
    t.mem = s.mem ∨
    (s.st = .rx ∧ s.pos < s.sbytes ∧ s.pos % 2 = 1 ∧
      ∃ c i v, loc s.cfg.layout s.n s.pos = (c, i) ∧ c < 2 ∧ i < s.n ∧
        t.out.sample = some ⟨s.fno, c, i, v⟩ ∧
        t.mem = memWriteCell s.mem (cellAddr s.n s.fno c i) v)

/-- 20_memory.md R54, R61, R65: inbound bytes are taken one at a time, in order, in `RX` only, and none is
lost while the session lives (70_reset_and_hazards.md R252). That the bytes the session holds stand in a
list is the model's choice (notes/assumptions/2.md), and so is that `RESET` is the step that ends the
session (14.md). -/
def Obligations.InboundBytesAreTakenInOrder : Prop :=
  ∀ s t : State, step s = .next t →
    t.rxq = s.rxq ∨ (s.st = .rx ∧ ∃ b, s.rxq = b :: t.rxq) ∨
    (∃ bytes rest, s.sched = .arrive bytes :: rest ∧ t.rxq = s.rxq ++ bytes) ∨
    (t.rxq = [] ∧ ∃ rest, s.sched = .rst :: rest)

/-- 10_state.md R38, 20_memory.md R69: no step writes the parameters, and the configured length is
constant while an acquisition runs. -/
def Obligations.LengthIsConstantDuringAnAcquisition : Prop :=
  ∀ s t : State, step s = .next t →
    t.cfg = s.cfg ∧
    ((s.st = .cmd ∨ s.st = .rx ∨ s.st = .wait) →
      (t.n = s.n ∧ t.nValid = s.nValid ∧ t.amount = s.amount ∧ t.mode = s.mode ∧
        t.sbytes = s.sbytes ∧ t.fbytes = s.fbytes) ∨ ∃ rest, s.sched = .rst :: rest)

/-- 10_state.md R32: `batch_ok` is set by the step that completes a bulk batch only, with the pulse
`batch_done`, at `amount` events or at once for an amount of 0. -/
def Obligations.BatchOkIsSetByCompletionOnly : Prop :=
  ∀ s t : State, s.batchOk = false → step s = .next t → t.batchOk = true →
    t.out.batchDone = true ∧ t.st = .idle ∧ s.mode = .bulk ∧
    ((s.st = .cmd ∧ s.amount = 0) ∨
      (s.st = .rx ∧ s.fbytes ≤ s.pos + 1 ∧ s.evt + 1 = s.amount ∧ t.evt = s.amount))

/-- 00_scope.md R15, 40_encoder.md R102, 42_frame_parser.md R179: every step answers a next state but a
read of the consumer outside the array: at its port, pending, or, in states no run reaches, a part of the
call in progress. That such a read faults is the model's choice (notes/assumptions/25.md). -/
def Obligations.OnlyAReadOutsideTheArrayStops : Prop :=
  ∀ s : State, (∃ t, step s = .next t) ∨
    (step s = .fault .noSuchCell ∧ ∃ f c i, ¬(c < 2 ∧ i < s.n) ∧
      ((∃ rest, s.sched = .strobe (.read f c i) :: rest) ∨
        (∃ rest ops, s.sched = .host :: rest ∧ s.call = [] ∧ s.host = .read f c i :: ops) ∨
        ∃ rest ops, s.sched = .host :: rest ∧ s.st ≠ .halt ∧ s.call = .read f c i :: ops))

/-! ## Frames and acquisitions -/

/-- 42_frame_parser.md R171, R196, 20_memory.md R53: offsets and places are inverse to each other in
both layouts, and no two samples share a cell. -/
def Obligations.PlacesAndCellsNeverCollide : Prop :=
  (∀ (layout : Layout) (n c i : Nat), c < 2 → i < n →
    loc layout n (off layout n c i) = (c, i) ∧ loc layout n (off layout n c i + 1) = (c, i) ∧
    off layout n c i + 1 < 4 * n) ∧
  ∀ n f c i f' c' i' : Nat, c < 2 → i < n → c' < 2 → i' < n →
    cellAddr n f c i = cellAddr n f' c' i' → f = f' ∧ c = c' ∧ i = i'

/-- 42_frame_parser.md R193: one frame takes `fbytes` bytes and writes each of its `2n` cells once. -/
def Obligations.EveryFrameWritesEachCellOnce : Prop :=
  ∀ (s : State) (bytes : List Byte), s.st = .rx → s.pos = 0 → 0 < s.fbytes →
    bytes.length = s.fbytes →
    (∀ k, k < s.fbytes → (receive (bytes.take k) s).pos = k ∧
      (receive (bytes.take k) s).st = .rx ∧ (receive (bytes.take k) s).fno = s.fno) ∧
    (receive bytes s).pos = 0 ∧ (receive bytes s).fno = (s.fno + 1) % 2 ^ s.cfg.fnoW ∧
    (sampleWrites bytes s).length = 2 * s.n ∧
    (∀ w ∈ sampleWrites bytes s, w.fno = s.fno ∧ w.ch < 2 ∧ w.idx < s.n) ∧
    ∀ c i, c < 2 → i < s.n →
      ∃ v, (sampleWrites bytes s).filter (fun w => w.ch == c && w.idx == i) = [⟨s.fno, c, i, v⟩]

/-- 42_frame_parser.md R191: what a bulk batch computes, for every configuration and every byte, with a
frame counter that the batch cannot wrap (10_state.md R46). -/
def Obligations.BulkBatchComputesTheArray : Prop :=
  ∀ (s t : State) (a : Count) (bytes : List Byte),
    s.st = .idle → s.nValid = true → 0 < s.fbytes → a ≠ 0 → a.toNat < 2 ^ s.cfg.fnoW →
    bytes.length = a.toNat * s.fbytes →
    t = receive bytes (afpIssue (afpStartBulk a s)) →
    t.st = .idle ∧ t.batchOk = true ∧ t.evt = a ∧ t.fno = a.toNat ∧
    (∃ w : Word64, w.toNat = 0x1F00000000000000 + a.toNat ∧ t.tx = s.tx ++ [w]) ∧
    (sampleWrites bytes (afpIssue (afpStartBulk a s))).length = 2 * s.n * a.toNat ∧
    (∀ f c i, f < a.toNat → c < 2 → i < s.n →
      ∃ b0 b1, bytes[f * s.fbytes + off s.cfg.layout s.n c i]? = some b0 ∧
        bytes[f * s.fbytes + off s.cfg.layout s.n c i + 1]? = some b1 ∧
        memReadCell t.mem (cellAddr s.n f c i) = some (asmSample s.cfg.sampleOrder b0 b1)) ∧
    ∀ bytes' : List Byte, bytes'.length = bytes.length →
      (∀ k, k % s.fbytes < s.sbytes → bytes'[k]? = bytes[k]?) →
      (receive bytes' (afpIssue (afpStartBulk a s))).mem = t.mem

/-- 42_frame_parser.md R178: the re-arm law of continuous mode. -/
def Obligations.StartCommandsFollowTheReArmLaw : Prop :=
  ∀ (s u t : State) (b : Count) (frames : List (List Byte)) (bytes : List Byte),
    s.st = .idle → s.nValid = true → 0 < s.fbytes → b ≠ 0 →
    (∀ f ∈ frames, f.length = s.fbytes) → bytes.length = s.fbytes →
    u = streamFrames frames (afpStartCont b s) → t = receive bytes (pullOnce u) →
    ((afpPull u).st = .cmd ↔ frames.length % b.toNat = 0) ∧
    ((afpPull u).st = .rx ↔ frames.length % b.toNat ≠ 0) ∧
    (∃ w : Word64, w.toNat = 0x1F00000000000000 + b.toNat ∧
      u.tx = s.tx ++ List.replicate ((frames.length + b.toNat - 1) / b.toNat) w ∧
      t.tx = s.tx ++ List.replicate ((frames.length + 1 + b.toNat - 1) / b.toNat) w)

/-- 42_frame_parser.md R192: what continuous mode computes: the final registers and the number of
`frame_done` pulses for every number of frames, and every frame's samples as long as the frame counter
does not wrap (10_state.md R46). -/
def Obligations.ContinuousModeComputesEveryFrame : Prop :=
  ∀ (s t : State) (b : Count) (frames : List (List Byte)),
    s.st = .idle → s.nValid = true → 0 < s.fbytes → b ≠ 0 →
    (∀ f ∈ frames, f.length = s.fbytes) → t = streamFrames frames (afpStartCont b s) →
    t.st = .wait ∧ t.fno = frames.length % 2 ^ s.cfg.fnoW ∧
    t.evt.toNat = frames.length % b.toNat ∧
    streamFramesDone frames (afpStartCont b s) = frames.length ∧
    (frames.length ≤ 2 ^ s.cfg.fnoW →
      ∀ (j c i : Nat) (frame : List Byte), frames[j]? = some frame → c < 2 → i < s.n →
        ∃ b0 b1, frame[off s.cfg.layout s.n c i]? = some b0 ∧
          frame[off s.cfg.layout s.n c i + 1]? = some b1 ∧
          memReadCell t.mem (cellAddr s.n j c i) = some (asmSample s.cfg.sampleOrder b0 b1))

/-! ## The caller -/

/-- 41_commands.md R152, 00_scope.md R9, 30_encoding.md R82: `SET_TOTAL_SAMPLES n`, whose operand
reaches the wire untruncated. Where the parts of the operation stand is the model's choice
(notes/assumptions/21.md and 32.md). -/
def Obligations.SetTotalSamplesConfiguresThenSends : Prop :=
  ∀ (s : State) (rest : List Turn) (view : CallerView) (n : Int),
    s.sched = .strobe (.setTotalSamples view n) :: rest →
    ((n < 0 ∨ (s.cfg.maximumSamples : Int) < n ∨ ∃ pre : Nat, view.preTrigger = some pre ∧ n < pre) →
      step s = .next ((s.took rest).tellCaller .invalidArgument)) ∧
    (0 ≤ n → n ≤ s.cfg.maximumSamples → (∀ pre : Nat, view.preTrigger = some pre → pre ≤ n) →
      step s = .next { s.took rest with
        call := .cfg n.toNat :: .send 18 0 (n + s.cfg.paddingCount) :: s.call }) ∧
    (s.cfg.legal = true → 0 ≤ n → n ≤ s.cfg.maximumSamples →
      ((cweEncode 18 0 (n + s.cfg.paddingCount)).toNat : Int) =
        0x1200000000000000 + n + s.cfg.paddingCount)

/-- 41_commands.md R148, R153, 93_implementation_defined.md U18: `SET_SPECTRUM weights`. That a weight
outside `[0, 2^32)` is refused as an invalid argument is the model's choice of the refusal
(notes/assumptions/23.md); where the sends stand is that of 32.md. -/
def Obligations.SetSpectrumSends4096BinsInOrder : Prop :=
  ∀ (s : State) (rest : List Turn) (weights : List Int),
    s.sched = .strobe (.setSpectrum weights) :: rest →
    ((weights.length ≠ 4096 ∨ ∃ weight ∈ weights, weight < 0 ∨ 2 ^ 32 ≤ weight) →
      step s = .next ((s.took rest).tellCaller .invalidArgument)) ∧
    (weights.length = 4096 → (∀ weight ∈ weights, 0 ≤ weight ∧ weight < 2 ^ 32) →
      ∃ ops : List HostOp,
        step s = .next { s.took rest with call := ops ++ s.call } ∧ ops.length = 4096 ∧
        ∀ (i : Nat) (weight : Int), weights[i]? = some weight →
          ops[i]? = some (.send 28 0 ((i : Int) * 2 ^ 32 + weight)))

/-- 41_commands.md R154, R155, 60_exceptions.md R220: the acquisition calls of the caller, how the waits
end, and how a broken session ends a call. That a wait for a batch goes on in `WAIT`, that a stream
carries its number of frames (notes/assumptions/21.md) and where a call stands (32.md) are the model's
choices. -/
def Obligations.AcquisitionCallsStartThenWait : Prop :=
  ∀ (s : State) (rest : List Turn),
    (∀ count : Count, s.sched = .strobe (.acquireBatch count) :: rest →
      step s = .next { s.took rest with call := .startBulk count :: .awaitBatch :: s.call }) ∧
    (∀ (burst : Count) (frames : Nat), s.sched = .strobe (.streamEvents burst frames) :: rest →
      ∃ pulls : List HostOp,
        step s = .next { s.took rest with call := .startCont burst :: (pulls ++ s.call) } ∧
        pulls.length = 2 * frames ∧
        ∀ k, k < frames → pulls[2 * k]? = some .pull ∧ pulls[2 * k + 1]? = some .awaitFrame) ∧
    (∀ ops : List HostOp, s.sched = .host :: rest → s.call = .awaitBatch :: ops →
      ((s.st = .cmd ∨ s.st = .rx ∨ s.st = .wait) → step s = .next (s.took rest)) ∧
      (s.st = .idle → s.batchOk = true → step s = .next { s.took rest with call := ops }) ∧
      (s.st = .halt → s.batchOk = false → step s = .next { s.took rest with
        call := [], out := { quietOutputs with callerError := some .connectionError } })) ∧
    (∀ ops : List HostOp, s.sched = .host :: rest → s.call = .awaitFrame :: ops →
      ((s.st = .cmd ∨ s.st = .rx) → step s = .next (s.took rest)) ∧
      (s.st = .wait → step s = .next { s.took rest with call := ops }) ∧
      (s.st = .halt → step s = .next { s.took rest with
        call := [], out := { quietOutputs with callerError := some .connectionError } })) ∧
    ∀ (op : HostOp) (ops : List HostOp), s.sched = .host :: rest → s.call = op :: ops →
      op ≠ .awaitBatch → op ≠ .awaitFrame → s.st = .halt →
      step s = .next { s.took rest with
        call := [], out := { quietOutputs with callerError := some .connectionError } }

/-- 41_commands.md R120 to R150, R156, R157, R159, 70_reset_and_hazards.md R267: a call for one
command checks its input before it encodes it, and then sends the word of its own command or does
nothing; `SET_SPECTRUM_GENERIC` fails at once. The caller's view is the model's choice
(notes/assumptions/21.md), and so are the numbers and domains the source leaves out (22.md). -/
def Obligations.SettersCheckThenSendOrFail : Prop :=
  ∀ (s : State) (rest : List Turn),
    (∀ (view : CallerView) (c : CallerCommand), s.sched = .strobe (.setter view c) :: rest →
      (RefusesCall s rest ∨
        ∃ (code : Code) (sub : SubIx) (operand : Int) (i : Instr),
          i.wellBehaved s.cfg view = true ∧ cweEncode code sub operand = encode i ∧
          BeginsSend s rest code sub operand) ∧
      (∀ code : Code,
        (c, code) ∈ ([(.rstHist, 0), (.rstTimer, 1), (.rstOsc, 2), (.rstGen, 3), (.rdStatus, 11),
          (.rdHist, 12), (.startOsc, 19), (.rdOsc, 20), (.rstSpec, 27), (.startGen, 29),
          (.stopGen, 30)] : List (CallerCommand × Code)) →
        BeginsSend s rest code 0 0) ∧
      (∀ (v : Int) (code : Code),
        (c, code) ∈ [(.setPhaDelay v, 6), (.setPhaMin v, 7), (.setPhaMax v, 8), (.setTimer v, 9),
          (.setTimerMode v, 10), (.setLower v, 23), (.setUpper v, 24)] →
        BeginsSend s rest code 0 v) ∧
      (∀ (v : Int) (code : Code),
        (c, code) ∈ [(.setRate v, 4), (.setFall v, 21), (.setRise v, 22), (.setGenRate v, 25),
          (.setDist v, 26)] →
        (-2 ^ 51 ≤ v → v < 2 ^ 52 →
          if Config.callerDomain code v then BeginsSend s rest code 0 v else RefusesCall s rest) ∧
        ((v < -2 ^ 51 ∨ 2 ^ 52 ≤ v) → RefusesCall s rest)) ∧
      (∀ (code : Code) (number : Value),
        (c, code, number) ∈ [(.setTrgSrc (some .channel0), 13, s.cfg.trigger.channel0),
          (.setTrgSrc (some .channel1), 13, s.cfg.trigger.channel1),
          (.setTrgSlope (some .rising), 14, s.cfg.trigger.rising),
          (.setTrgSlope (some .falling), 14, s.cfg.trigger.falling),
          (.setTrgMode (some .normal), 15, s.cfg.trigger.normal),
          (.setTrgMode (some .automatic), 15, s.cfg.trigger.automatic)] →
        BeginsSend s rest code 0 (number.toNat : Int)) ∧
      ((c = .setTrgSrc none ∨ c = .setTrgSlope none ∨ c = .setTrgMode none) → RefusesCall s rest) ∧
      (∀ level : Int, c = .setTrgLevel level →
        (-4096 ≤ level → level ≤ 4095 → BeginsSend s rest 16 0 level) ∧
        ((level < -4096 ∨ 4095 < level) → RefusesCall s rest)) ∧
      (∀ n : Int, c = .setPre n →
        (0 ≤ n → n ≤ s.cfg.maximumSamples → (∀ total : Nat, view.totalSamples = some total → n ≤ total) →
          BeginsSend s rest 17 0 n) ∧
        ((n < 0 ∨ (s.cfg.maximumSamples : Int) < n ∨
            ∃ total : Nat, view.totalSamples = some total ∧ total < n) → RefusesCall s rest)) ∧
      ∀ channel v : Int, c = .setNeg channel v →
        ((0 ≤ channel ∧ channel ≤ 1 ∧ 0 ≤ v ∧ v ≤ 1) →
          ∃ sub : SubIx, (sub.toNat : Int) = channel ∧ BeginsSend s rest 5 sub v) ∧
        (¬(0 ≤ channel ∧ channel ≤ 1 ∧ 0 ≤ v ∧ v ≤ 1) → RefusesCall s rest)) ∧
    (s.sched = .strobe .setSpectrumGeneric :: rest →
      step s = .next { s.took rest with
        out := { quietOutputs with callerError := some .notImplemented } })
end

