-- ==== Sys2Proof/Laws/State.lean ====
section
/-! SUPPORT. What each named update writes and what it leaves: one lemma a field and update, each true
by `rfl`, so that no proof unfolds an update. -/

namespace Sys2Proof.Machine

/-! ## quiet: every pulse low -/

@[simp] theorem State.quiet_st (s : State) :
    s.quiet.st = s.st := rfl
@[simp] theorem State.quiet_pos (s : State) :
    s.quiet.pos = s.pos := rfl
@[simp] theorem State.quiet_nValid (s : State) :
    s.quiet.nValid = s.nValid := rfl
@[simp] theorem State.quiet_n (s : State) :
    s.quiet.n = s.n := rfl
@[simp] theorem State.quiet_mode (s : State) :
    s.quiet.mode = s.mode := rfl
@[simp] theorem State.quiet_amount (s : State) :
    s.quiet.amount = s.amount := rfl
@[simp] theorem State.quiet_evt (s : State) :
    s.quiet.evt = s.evt := rfl
@[simp] theorem State.quiet_fno (s : State) :
    s.quiet.fno = s.fno := rfl
@[simp] theorem State.quiet_hold (s : State) :
    s.quiet.hold = s.hold := rfl
@[simp] theorem State.quiet_batchOk (s : State) :
    s.quiet.batchOk = s.batchOk := rfl
@[simp] theorem State.quiet_cause (s : State) :
    s.quiet.cause = s.cause := rfl
@[simp] theorem State.quiet_tx (s : State) :
    s.quiet.tx = s.tx := rfl
@[simp] theorem State.quiet_mem (s : State) :
    s.quiet.mem = s.mem := rfl
@[simp] theorem State.quiet_cfg (s : State) :
    s.quiet.cfg = s.cfg := rfl
@[simp] theorem State.quiet_out (s : State) :
    s.quiet.out = quietOutputs := rfl
@[simp] theorem State.quiet_sched (s : State) :
    s.quiet.sched = s.sched := rfl
@[simp] theorem State.quiet_host (s : State) :
    s.quiet.host = s.host := rfl
@[simp] theorem State.quiet_rxq (s : State) :
    s.quiet.rxq = s.rxq := rfl
@[simp] theorem State.quiet_call (s : State) :
    s.quiet.call = s.call := rfl
@[simp] theorem State.quiet_frames (s : State) :
    s.quiet.frames = s.frames := rfl
@[simp] theorem State.quiet_freeCtr (s : State) :
    s.quiet.freeCtr = s.freeCtr := rfl

/-! ## reject: a reject (60_exceptions.md R222) -/

@[simp] theorem State.reject_st (s : State) (r : RejCode) :
    (s.reject r).st = s.st := rfl
@[simp] theorem State.reject_pos (s : State) (r : RejCode) :
    (s.reject r).pos = s.pos := rfl
@[simp] theorem State.reject_nValid (s : State) (r : RejCode) :
    (s.reject r).nValid = s.nValid := rfl
@[simp] theorem State.reject_n (s : State) (r : RejCode) :
    (s.reject r).n = s.n := rfl
@[simp] theorem State.reject_mode (s : State) (r : RejCode) :
    (s.reject r).mode = s.mode := rfl
@[simp] theorem State.reject_amount (s : State) (r : RejCode) :
    (s.reject r).amount = s.amount := rfl
@[simp] theorem State.reject_evt (s : State) (r : RejCode) :
    (s.reject r).evt = s.evt := rfl
@[simp] theorem State.reject_fno (s : State) (r : RejCode) :
    (s.reject r).fno = s.fno := rfl
@[simp] theorem State.reject_hold (s : State) (r : RejCode) :
    (s.reject r).hold = s.hold := rfl
@[simp] theorem State.reject_batchOk (s : State) (r : RejCode) :
    (s.reject r).batchOk = s.batchOk := rfl
@[simp] theorem State.reject_cause (s : State) (r : RejCode) :
    (s.reject r).cause = s.cause := rfl
@[simp] theorem State.reject_tx (s : State) (r : RejCode) :
    (s.reject r).tx = s.tx := rfl
@[simp] theorem State.reject_mem (s : State) (r : RejCode) :
    (s.reject r).mem = s.mem := rfl
@[simp] theorem State.reject_cfg (s : State) (r : RejCode) :
    (s.reject r).cfg = s.cfg := rfl
@[simp] theorem State.reject_out (s : State) (r : RejCode) :
    (s.reject r).out = { s.out with rejCode := r } := rfl
@[simp] theorem State.reject_sched (s : State) (r : RejCode) :
    (s.reject r).sched = s.sched := rfl
@[simp] theorem State.reject_host (s : State) (r : RejCode) :
    (s.reject r).host = s.host := rfl
@[simp] theorem State.reject_rxq (s : State) (r : RejCode) :
    (s.reject r).rxq = s.rxq := rfl
@[simp] theorem State.reject_call (s : State) (r : RejCode) :
    (s.reject r).call = s.call := rfl
@[simp] theorem State.reject_frames (s : State) (r : RejCode) :
    (s.reject r).frames = s.frames := rfl
@[simp] theorem State.reject_freeCtr (s : State) (r : RejCode) :
    (s.reject r).freeCtr = s.freeCtr := rfl

/-! ## tellCaller: a caller's error -/

@[simp] theorem State.tellCaller_st (s : State) (e : CallerError) :
    (s.tellCaller e).st = s.st := rfl
@[simp] theorem State.tellCaller_pos (s : State) (e : CallerError) :
    (s.tellCaller e).pos = s.pos := rfl
@[simp] theorem State.tellCaller_nValid (s : State) (e : CallerError) :
    (s.tellCaller e).nValid = s.nValid := rfl
@[simp] theorem State.tellCaller_n (s : State) (e : CallerError) :
    (s.tellCaller e).n = s.n := rfl
@[simp] theorem State.tellCaller_mode (s : State) (e : CallerError) :
    (s.tellCaller e).mode = s.mode := rfl
@[simp] theorem State.tellCaller_amount (s : State) (e : CallerError) :
    (s.tellCaller e).amount = s.amount := rfl
@[simp] theorem State.tellCaller_evt (s : State) (e : CallerError) :
    (s.tellCaller e).evt = s.evt := rfl
@[simp] theorem State.tellCaller_fno (s : State) (e : CallerError) :
    (s.tellCaller e).fno = s.fno := rfl
@[simp] theorem State.tellCaller_hold (s : State) (e : CallerError) :
    (s.tellCaller e).hold = s.hold := rfl
@[simp] theorem State.tellCaller_batchOk (s : State) (e : CallerError) :
    (s.tellCaller e).batchOk = s.batchOk := rfl
@[simp] theorem State.tellCaller_cause (s : State) (e : CallerError) :
    (s.tellCaller e).cause = s.cause := rfl
@[simp] theorem State.tellCaller_tx (s : State) (e : CallerError) :
    (s.tellCaller e).tx = s.tx := rfl
@[simp] theorem State.tellCaller_mem (s : State) (e : CallerError) :
    (s.tellCaller e).mem = s.mem := rfl
@[simp] theorem State.tellCaller_cfg (s : State) (e : CallerError) :
    (s.tellCaller e).cfg = s.cfg := rfl
@[simp] theorem State.tellCaller_out (s : State) (e : CallerError) :
    (s.tellCaller e).out = { s.out with callerError := some e } := rfl
@[simp] theorem State.tellCaller_sched (s : State) (e : CallerError) :
    (s.tellCaller e).sched = s.sched := rfl
@[simp] theorem State.tellCaller_host (s : State) (e : CallerError) :
    (s.tellCaller e).host = s.host := rfl
@[simp] theorem State.tellCaller_rxq (s : State) (e : CallerError) :
    (s.tellCaller e).rxq = s.rxq := rfl
@[simp] theorem State.tellCaller_call (s : State) (e : CallerError) :
    (s.tellCaller e).call = s.call := rfl
@[simp] theorem State.tellCaller_frames (s : State) (e : CallerError) :
    (s.tellCaller e).frames = s.frames := rfl
@[simp] theorem State.tellCaller_freeCtr (s : State) (e : CallerError) :
    (s.tellCaller e).freeCtr = s.freeCtr := rfl

/-! ## failCall: a caller-level operation fails as a whole -/

@[simp] theorem State.failCall_st (s : State) (e : CallerError) :
    (s.failCall e).st = s.st := rfl
@[simp] theorem State.failCall_pos (s : State) (e : CallerError) :
    (s.failCall e).pos = s.pos := rfl
@[simp] theorem State.failCall_nValid (s : State) (e : CallerError) :
    (s.failCall e).nValid = s.nValid := rfl
@[simp] theorem State.failCall_n (s : State) (e : CallerError) :
    (s.failCall e).n = s.n := rfl
@[simp] theorem State.failCall_mode (s : State) (e : CallerError) :
    (s.failCall e).mode = s.mode := rfl
@[simp] theorem State.failCall_amount (s : State) (e : CallerError) :
    (s.failCall e).amount = s.amount := rfl
@[simp] theorem State.failCall_evt (s : State) (e : CallerError) :
    (s.failCall e).evt = s.evt := rfl
@[simp] theorem State.failCall_fno (s : State) (e : CallerError) :
    (s.failCall e).fno = s.fno := rfl
@[simp] theorem State.failCall_hold (s : State) (e : CallerError) :
    (s.failCall e).hold = s.hold := rfl
@[simp] theorem State.failCall_batchOk (s : State) (e : CallerError) :
    (s.failCall e).batchOk = s.batchOk := rfl
@[simp] theorem State.failCall_cause (s : State) (e : CallerError) :
    (s.failCall e).cause = s.cause := rfl
@[simp] theorem State.failCall_tx (s : State) (e : CallerError) :
    (s.failCall e).tx = s.tx := rfl
@[simp] theorem State.failCall_mem (s : State) (e : CallerError) :
    (s.failCall e).mem = s.mem := rfl
@[simp] theorem State.failCall_cfg (s : State) (e : CallerError) :
    (s.failCall e).cfg = s.cfg := rfl
@[simp] theorem State.failCall_out (s : State) (e : CallerError) :
    (s.failCall e).out = { s.out with callerError := some e } := rfl
@[simp] theorem State.failCall_sched (s : State) (e : CallerError) :
    (s.failCall e).sched = s.sched := rfl
@[simp] theorem State.failCall_host (s : State) (e : CallerError) :
    (s.failCall e).host = s.host := rfl
@[simp] theorem State.failCall_rxq (s : State) (e : CallerError) :
    (s.failCall e).rxq = s.rxq := rfl
@[simp] theorem State.failCall_call (s : State) (e : CallerError) :
    (s.failCall e).call = [] := rfl
@[simp] theorem State.failCall_frames (s : State) (e : CallerError) :
    (s.failCall e).frames = s.frames := rfl
@[simp] theorem State.failCall_freeCtr (s : State) (e : CallerError) :
    (s.failCall e).freeCtr = s.freeCtr := rfl

/-! ## showWord: an evaluation of the encoder -/

@[simp] theorem State.showWord_st (s : State) (w : Word64) :
    (s.showWord w).st = s.st := rfl
@[simp] theorem State.showWord_pos (s : State) (w : Word64) :
    (s.showWord w).pos = s.pos := rfl
@[simp] theorem State.showWord_nValid (s : State) (w : Word64) :
    (s.showWord w).nValid = s.nValid := rfl
@[simp] theorem State.showWord_n (s : State) (w : Word64) :
    (s.showWord w).n = s.n := rfl
@[simp] theorem State.showWord_mode (s : State) (w : Word64) :
    (s.showWord w).mode = s.mode := rfl
@[simp] theorem State.showWord_amount (s : State) (w : Word64) :
    (s.showWord w).amount = s.amount := rfl
@[simp] theorem State.showWord_evt (s : State) (w : Word64) :
    (s.showWord w).evt = s.evt := rfl
@[simp] theorem State.showWord_fno (s : State) (w : Word64) :
    (s.showWord w).fno = s.fno := rfl
@[simp] theorem State.showWord_hold (s : State) (w : Word64) :
    (s.showWord w).hold = s.hold := rfl
@[simp] theorem State.showWord_batchOk (s : State) (w : Word64) :
    (s.showWord w).batchOk = s.batchOk := rfl
@[simp] theorem State.showWord_cause (s : State) (w : Word64) :
    (s.showWord w).cause = s.cause := rfl
@[simp] theorem State.showWord_tx (s : State) (w : Word64) :
    (s.showWord w).tx = s.tx := rfl
@[simp] theorem State.showWord_mem (s : State) (w : Word64) :
    (s.showWord w).mem = s.mem := rfl
@[simp] theorem State.showWord_cfg (s : State) (w : Word64) :
    (s.showWord w).cfg = s.cfg := rfl
@[simp] theorem State.showWord_out (s : State) (w : Word64) :
    (s.showWord w).out = { s.out with word := some w } := rfl
@[simp] theorem State.showWord_sched (s : State) (w : Word64) :
    (s.showWord w).sched = s.sched := rfl
@[simp] theorem State.showWord_host (s : State) (w : Word64) :
    (s.showWord w).host = s.host := rfl
@[simp] theorem State.showWord_rxq (s : State) (w : Word64) :
    (s.showWord w).rxq = s.rxq := rfl
@[simp] theorem State.showWord_call (s : State) (w : Word64) :
    (s.showWord w).call = s.call := rfl
@[simp] theorem State.showWord_frames (s : State) (w : Word64) :
    (s.showWord w).frames = s.frames := rfl
@[simp] theorem State.showWord_freeCtr (s : State) (w : Word64) :
    (s.showWord w).freeCtr = s.freeCtr := rfl

/-! ## txWord: `TxWord` (20_memory.md R51) -/

@[simp] theorem State.txWord_st (s : State) (w : Word64) :
    (s.txWord w).st = s.st := rfl
@[simp] theorem State.txWord_pos (s : State) (w : Word64) :
    (s.txWord w).pos = s.pos := rfl
@[simp] theorem State.txWord_nValid (s : State) (w : Word64) :
    (s.txWord w).nValid = s.nValid := rfl
@[simp] theorem State.txWord_n (s : State) (w : Word64) :
    (s.txWord w).n = s.n := rfl
@[simp] theorem State.txWord_mode (s : State) (w : Word64) :
    (s.txWord w).mode = s.mode := rfl
@[simp] theorem State.txWord_amount (s : State) (w : Word64) :
    (s.txWord w).amount = s.amount := rfl
@[simp] theorem State.txWord_evt (s : State) (w : Word64) :
    (s.txWord w).evt = s.evt := rfl
@[simp] theorem State.txWord_fno (s : State) (w : Word64) :
    (s.txWord w).fno = s.fno := rfl
@[simp] theorem State.txWord_hold (s : State) (w : Word64) :
    (s.txWord w).hold = s.hold := rfl
@[simp] theorem State.txWord_batchOk (s : State) (w : Word64) :
    (s.txWord w).batchOk = s.batchOk := rfl
@[simp] theorem State.txWord_cause (s : State) (w : Word64) :
    (s.txWord w).cause = s.cause := rfl
@[simp] theorem State.txWord_tx (s : State) (w : Word64) :
    (s.txWord w).tx = s.tx ++ [w] := rfl
@[simp] theorem State.txWord_mem (s : State) (w : Word64) :
    (s.txWord w).mem = s.mem := rfl
@[simp] theorem State.txWord_cfg (s : State) (w : Word64) :
    (s.txWord w).cfg = s.cfg := rfl
@[simp] theorem State.txWord_out (s : State) (w : Word64) :
    (s.txWord w).out = { s.out with word := some w, txWord := some w } := rfl
@[simp] theorem State.txWord_sched (s : State) (w : Word64) :
    (s.txWord w).sched = s.sched := rfl
@[simp] theorem State.txWord_host (s : State) (w : Word64) :
    (s.txWord w).host = s.host := rfl
@[simp] theorem State.txWord_rxq (s : State) (w : Word64) :
    (s.txWord w).rxq = s.rxq := rfl
@[simp] theorem State.txWord_call (s : State) (w : Word64) :
    (s.txWord w).call = s.call := rfl
@[simp] theorem State.txWord_frames (s : State) (w : Word64) :
    (s.txWord w).frames = s.frames := rfl
@[simp] theorem State.txWord_freeCtr (s : State) (w : Word64) :
    (s.txWord w).freeCtr = s.freeCtr := rfl

/-! ## raiseHalt: entering `HALT` (60_exceptions.md R230) -/

@[simp] theorem State.raiseHalt_st (s : State) (c : Cause) :
    (s.raiseHalt c).st = SeqState.halt := rfl
@[simp] theorem State.raiseHalt_pos (s : State) (c : Cause) :
    (s.raiseHalt c).pos = s.pos := rfl
@[simp] theorem State.raiseHalt_nValid (s : State) (c : Cause) :
    (s.raiseHalt c).nValid = s.nValid := rfl
@[simp] theorem State.raiseHalt_n (s : State) (c : Cause) :
    (s.raiseHalt c).n = s.n := rfl
@[simp] theorem State.raiseHalt_mode (s : State) (c : Cause) :
    (s.raiseHalt c).mode = s.mode := rfl
@[simp] theorem State.raiseHalt_amount (s : State) (c : Cause) :
    (s.raiseHalt c).amount = s.amount := rfl
@[simp] theorem State.raiseHalt_evt (s : State) (c : Cause) :
    (s.raiseHalt c).evt = s.evt := rfl
@[simp] theorem State.raiseHalt_fno (s : State) (c : Cause) :
    (s.raiseHalt c).fno = s.fno := rfl
@[simp] theorem State.raiseHalt_hold (s : State) (c : Cause) :
    (s.raiseHalt c).hold = s.hold := rfl
@[simp] theorem State.raiseHalt_batchOk (s : State) (c : Cause) :
    (s.raiseHalt c).batchOk = s.batchOk := rfl
@[simp] theorem State.raiseHalt_cause (s : State) (c : Cause) :
    (s.raiseHalt c).cause = c := rfl
@[simp] theorem State.raiseHalt_tx (s : State) (c : Cause) :
    (s.raiseHalt c).tx = s.tx := rfl
@[simp] theorem State.raiseHalt_mem (s : State) (c : Cause) :
    (s.raiseHalt c).mem = s.mem := rfl
@[simp] theorem State.raiseHalt_cfg (s : State) (c : Cause) :
    (s.raiseHalt c).cfg = s.cfg := rfl
@[simp] theorem State.raiseHalt_out (s : State) (c : Cause) :
    (s.raiseHalt c).out = s.out := rfl
@[simp] theorem State.raiseHalt_sched (s : State) (c : Cause) :
    (s.raiseHalt c).sched = s.sched := rfl
@[simp] theorem State.raiseHalt_host (s : State) (c : Cause) :
    (s.raiseHalt c).host = s.host := rfl
@[simp] theorem State.raiseHalt_rxq (s : State) (c : Cause) :
    (s.raiseHalt c).rxq = s.rxq := rfl
@[simp] theorem State.raiseHalt_call (s : State) (c : Cause) :
    (s.raiseHalt c).call = s.call := rfl
@[simp] theorem State.raiseHalt_frames (s : State) (c : Cause) :
    (s.raiseHalt c).frames = s.frames := rfl
@[simp] theorem State.raiseHalt_freeCtr (s : State) (c : Cause) :
    (s.raiseHalt c).freeCtr = s.freeCtr := rfl

/-! ## resetBlock: `RESET` (70_reset_and_hazards.md R250) -/

@[simp] theorem State.resetBlock_st (s : State) :
    s.resetBlock.st = SeqState.idle := rfl
@[simp] theorem State.resetBlock_pos (s : State) :
    s.resetBlock.pos = 0 := rfl
@[simp] theorem State.resetBlock_nValid (s : State) :
    s.resetBlock.nValid = false := rfl
@[simp] theorem State.resetBlock_n (s : State) :
    s.resetBlock.n = 0 := rfl
@[simp] theorem State.resetBlock_mode (s : State) :
    s.resetBlock.mode = Mode.bulk := rfl
@[simp] theorem State.resetBlock_amount (s : State) :
    s.resetBlock.amount = 0 := rfl
@[simp] theorem State.resetBlock_evt (s : State) :
    s.resetBlock.evt = 0 := rfl
@[simp] theorem State.resetBlock_fno (s : State) :
    s.resetBlock.fno = 0 := rfl
@[simp] theorem State.resetBlock_hold (s : State) :
    s.resetBlock.hold = 0 := rfl
@[simp] theorem State.resetBlock_batchOk (s : State) :
    s.resetBlock.batchOk = false := rfl
@[simp] theorem State.resetBlock_cause (s : State) :
    s.resetBlock.cause = Cause.none := rfl
@[simp] theorem State.resetBlock_tx (s : State) :
    s.resetBlock.tx = [] := rfl
@[simp] theorem State.resetBlock_mem (s : State) :
    s.resetBlock.mem = s.mem := rfl
@[simp] theorem State.resetBlock_cfg (s : State) :
    s.resetBlock.cfg = s.cfg := rfl
@[simp] theorem State.resetBlock_out (s : State) :
    s.resetBlock.out = quietOutputs := rfl
@[simp] theorem State.resetBlock_sched (s : State) :
    s.resetBlock.sched = s.sched := rfl
@[simp] theorem State.resetBlock_host (s : State) :
    s.resetBlock.host = s.host := rfl
@[simp] theorem State.resetBlock_rxq (s : State) :
    s.resetBlock.rxq = [] := rfl
@[simp] theorem State.resetBlock_call (s : State) :
    s.resetBlock.call = [] := rfl
@[simp] theorem State.resetBlock_frames (s : State) :
    s.resetBlock.frames = 0 := rfl
@[simp] theorem State.resetBlock_freeCtr (s : State) :
    s.resetBlock.freeCtr = s.freeCtr := rfl

/-! ## placeCommand: placing a command -/

@[simp] theorem State.placeCommand_st (s : State) (w : Word64) :
    (s.placeCommand w).st = s.st := rfl
@[simp] theorem State.placeCommand_pos (s : State) (w : Word64) :
    (s.placeCommand w).pos = s.pos := rfl
@[simp] theorem State.placeCommand_nValid (s : State) (w : Word64) :
    (s.placeCommand w).nValid = s.nValid := rfl
@[simp] theorem State.placeCommand_n (s : State) (w : Word64) :
    (s.placeCommand w).n = s.n := rfl
@[simp] theorem State.placeCommand_mode (s : State) (w : Word64) :
    (s.placeCommand w).mode = s.mode := rfl
@[simp] theorem State.placeCommand_amount (s : State) (w : Word64) :
    (s.placeCommand w).amount = s.amount := rfl
@[simp] theorem State.placeCommand_evt (s : State) (w : Word64) :
    (s.placeCommand w).evt = s.evt := rfl
@[simp] theorem State.placeCommand_fno (s : State) (w : Word64) :
    (s.placeCommand w).fno = s.fno := rfl
@[simp] theorem State.placeCommand_hold (s : State) (w : Word64) :
    (s.placeCommand w).hold = s.hold := rfl
@[simp] theorem State.placeCommand_batchOk (s : State) (w : Word64) :
    (s.placeCommand w).batchOk = s.batchOk := rfl
@[simp] theorem State.placeCommand_cause (s : State) (w : Word64) :
    (s.placeCommand w).cause = s.cause := rfl
@[simp] theorem State.placeCommand_tx (s : State) (w : Word64) :
    (s.placeCommand w).tx = s.tx := rfl
@[simp] theorem State.placeCommand_mem (s : State) (w : Word64) :
    (s.placeCommand w).mem = s.mem := rfl
@[simp] theorem State.placeCommand_cfg (s : State) (w : Word64) :
    (s.placeCommand w).cfg = s.cfg := rfl
@[simp] theorem State.placeCommand_out (s : State) (w : Word64) :
    (s.placeCommand w).out = s.out := rfl
@[simp] theorem State.placeCommand_sched (s : State) (w : Word64) :
    (s.placeCommand w).sched =
      .strobe (.send (cweDecode w).code (cweDecode w).sub ((cweDecode w).value.toNat : Int)) :: s.sched := rfl
@[simp] theorem State.placeCommand_host (s : State) (w : Word64) :
    (s.placeCommand w).host = s.host := rfl
@[simp] theorem State.placeCommand_rxq (s : State) (w : Word64) :
    (s.placeCommand w).rxq = s.rxq := rfl
@[simp] theorem State.placeCommand_call (s : State) (w : Word64) :
    (s.placeCommand w).call = s.call := rfl
@[simp] theorem State.placeCommand_frames (s : State) (w : Word64) :
    (s.placeCommand w).frames = s.frames := rfl
@[simp] theorem State.placeCommand_freeCtr (s : State) (w : Word64) :
    (s.placeCommand w).freeCtr = s.freeCtr := rfl

/-! ## beginAcquisition: an accepted start (42_frame_parser.md R174, R175) -/

@[simp] theorem State.beginAcquisition_st (s : State) (m : Mode) (a : Count) (next : SeqState) :
    (s.beginAcquisition m a next).st = next := rfl
@[simp] theorem State.beginAcquisition_pos (s : State) (m : Mode) (a : Count) (next : SeqState) :
    (s.beginAcquisition m a next).pos = 0 := rfl
@[simp] theorem State.beginAcquisition_nValid (s : State) (m : Mode) (a : Count) (next : SeqState) :
    (s.beginAcquisition m a next).nValid = s.nValid := rfl
@[simp] theorem State.beginAcquisition_n (s : State) (m : Mode) (a : Count) (next : SeqState) :
    (s.beginAcquisition m a next).n = s.n := rfl
@[simp] theorem State.beginAcquisition_mode (s : State) (m : Mode) (a : Count) (next : SeqState) :
    (s.beginAcquisition m a next).mode = m := rfl
@[simp] theorem State.beginAcquisition_amount (s : State) (m : Mode) (a : Count) (next : SeqState) :
    (s.beginAcquisition m a next).amount = a := rfl
@[simp] theorem State.beginAcquisition_evt (s : State) (m : Mode) (a : Count) (next : SeqState) :
    (s.beginAcquisition m a next).evt = 0 := rfl
@[simp] theorem State.beginAcquisition_fno (s : State) (m : Mode) (a : Count) (next : SeqState) :
    (s.beginAcquisition m a next).fno = 0 := rfl
@[simp] theorem State.beginAcquisition_hold (s : State) (m : Mode) (a : Count) (next : SeqState) :
    (s.beginAcquisition m a next).hold = s.hold := rfl
@[simp] theorem State.beginAcquisition_batchOk (s : State) (m : Mode) (a : Count) (next : SeqState) :
    (s.beginAcquisition m a next).batchOk = false := rfl
@[simp] theorem State.beginAcquisition_cause (s : State) (m : Mode) (a : Count) (next : SeqState) :
    (s.beginAcquisition m a next).cause = s.cause := rfl
@[simp] theorem State.beginAcquisition_tx (s : State) (m : Mode) (a : Count) (next : SeqState) :
    (s.beginAcquisition m a next).tx = s.tx := rfl
@[simp] theorem State.beginAcquisition_mem (s : State) (m : Mode) (a : Count) (next : SeqState) :
    (s.beginAcquisition m a next).mem = s.mem := rfl
@[simp] theorem State.beginAcquisition_cfg (s : State) (m : Mode) (a : Count) (next : SeqState) :
    (s.beginAcquisition m a next).cfg = s.cfg := rfl
@[simp] theorem State.beginAcquisition_out (s : State) (m : Mode) (a : Count) (next : SeqState) :
    (s.beginAcquisition m a next).out = s.out := rfl
@[simp] theorem State.beginAcquisition_sched (s : State) (m : Mode) (a : Count) (next : SeqState) :
    (s.beginAcquisition m a next).sched = s.sched := rfl
@[simp] theorem State.beginAcquisition_host (s : State) (m : Mode) (a : Count) (next : SeqState) :
    (s.beginAcquisition m a next).host = s.host := rfl
@[simp] theorem State.beginAcquisition_rxq (s : State) (m : Mode) (a : Count) (next : SeqState) :
    (s.beginAcquisition m a next).rxq = s.rxq := rfl
@[simp] theorem State.beginAcquisition_call (s : State) (m : Mode) (a : Count) (next : SeqState) :
    (s.beginAcquisition m a next).call = s.call := rfl
@[simp] theorem State.beginAcquisition_frames (s : State) (m : Mode) (a : Count) (next : SeqState) :
    (s.beginAcquisition m a next).frames = 0 := rfl
@[simp] theorem State.beginAcquisition_freeCtr (s : State) (m : Mode) (a : Count) (next : SeqState) :
    (s.beginAcquisition m a next).freeCtr = s.freeCtr := rfl

/-! ## completeBatch: a finished batch (42_frame_parser.md R176, R185) -/

@[simp] theorem State.completeBatch_st (s : State) :
    s.completeBatch.st = SeqState.idle := rfl
@[simp] theorem State.completeBatch_pos (s : State) :
    s.completeBatch.pos = s.pos := rfl
@[simp] theorem State.completeBatch_nValid (s : State) :
    s.completeBatch.nValid = s.nValid := rfl
@[simp] theorem State.completeBatch_n (s : State) :
    s.completeBatch.n = s.n := rfl
@[simp] theorem State.completeBatch_mode (s : State) :
    s.completeBatch.mode = s.mode := rfl
@[simp] theorem State.completeBatch_amount (s : State) :
    s.completeBatch.amount = s.amount := rfl
@[simp] theorem State.completeBatch_evt (s : State) :
    s.completeBatch.evt = s.evt := rfl
@[simp] theorem State.completeBatch_fno (s : State) :
    s.completeBatch.fno = s.fno := rfl
@[simp] theorem State.completeBatch_hold (s : State) :
    s.completeBatch.hold = s.hold := rfl
@[simp] theorem State.completeBatch_batchOk (s : State) :
    s.completeBatch.batchOk = true := rfl
@[simp] theorem State.completeBatch_cause (s : State) :
    s.completeBatch.cause = s.cause := rfl
@[simp] theorem State.completeBatch_tx (s : State) :
    s.completeBatch.tx = s.tx := rfl
@[simp] theorem State.completeBatch_mem (s : State) :
    s.completeBatch.mem = s.mem := rfl
@[simp] theorem State.completeBatch_cfg (s : State) :
    s.completeBatch.cfg = s.cfg := rfl
@[simp] theorem State.completeBatch_out (s : State) :
    s.completeBatch.out = { s.out with batchDone := true } := rfl
@[simp] theorem State.completeBatch_sched (s : State) :
    s.completeBatch.sched = s.sched := rfl
@[simp] theorem State.completeBatch_host (s : State) :
    s.completeBatch.host = s.host := rfl
@[simp] theorem State.completeBatch_rxq (s : State) :
    s.completeBatch.rxq = s.rxq := rfl
@[simp] theorem State.completeBatch_call (s : State) :
    s.completeBatch.call = s.call := rfl
@[simp] theorem State.completeBatch_frames (s : State) :
    s.completeBatch.frames = s.frames := rfl
@[simp] theorem State.completeBatch_freeCtr (s : State) :
    s.completeBatch.freeCtr = s.freeCtr := rfl

/-! ## storeSample: a stored sample (42_frame_parser.md R183) -/

@[simp] theorem State.storeSample_st (s : State) (b : Byte) :
    (s.storeSample b).st = s.st := rfl
@[simp] theorem State.storeSample_pos (s : State) (b : Byte) :
    (s.storeSample b).pos = s.pos := rfl
@[simp] theorem State.storeSample_nValid (s : State) (b : Byte) :
    (s.storeSample b).nValid = s.nValid := rfl
@[simp] theorem State.storeSample_n (s : State) (b : Byte) :
    (s.storeSample b).n = s.n := rfl
@[simp] theorem State.storeSample_mode (s : State) (b : Byte) :
    (s.storeSample b).mode = s.mode := rfl
@[simp] theorem State.storeSample_amount (s : State) (b : Byte) :
    (s.storeSample b).amount = s.amount := rfl
@[simp] theorem State.storeSample_evt (s : State) (b : Byte) :
    (s.storeSample b).evt = s.evt := rfl
@[simp] theorem State.storeSample_fno (s : State) (b : Byte) :
    (s.storeSample b).fno = s.fno := rfl
@[simp] theorem State.storeSample_hold (s : State) (b : Byte) :
    (s.storeSample b).hold = s.hold := rfl
@[simp] theorem State.storeSample_batchOk (s : State) (b : Byte) :
    (s.storeSample b).batchOk = s.batchOk := rfl
@[simp] theorem State.storeSample_cause (s : State) (b : Byte) :
    (s.storeSample b).cause = s.cause := rfl
@[simp] theorem State.storeSample_tx (s : State) (b : Byte) :
    (s.storeSample b).tx = s.tx := rfl
@[simp] theorem State.storeSample_mem (s : State) (b : Byte) :
    (s.storeSample b).mem = memWriteCell s.mem (cellAddr s.n s.fno (loc s.cfg.layout s.n s.pos).1 (loc s.cfg.layout s.n s.pos).2)
      (asmSample s.cfg.sampleOrder s.hold b) := rfl
@[simp] theorem State.storeSample_cfg (s : State) (b : Byte) :
    (s.storeSample b).cfg = s.cfg := rfl
@[simp] theorem State.storeSample_out (s : State) (b : Byte) :
    (s.storeSample b).out = { s.out with sample := some ⟨s.fno, (loc s.cfg.layout s.n s.pos).1,
      (loc s.cfg.layout s.n s.pos).2, asmSample s.cfg.sampleOrder s.hold b⟩ } := rfl
@[simp] theorem State.storeSample_sched (s : State) (b : Byte) :
    (s.storeSample b).sched = s.sched := rfl
@[simp] theorem State.storeSample_host (s : State) (b : Byte) :
    (s.storeSample b).host = s.host := rfl
@[simp] theorem State.storeSample_rxq (s : State) (b : Byte) :
    (s.storeSample b).rxq = s.rxq := rfl
@[simp] theorem State.storeSample_call (s : State) (b : Byte) :
    (s.storeSample b).call = s.call := rfl
@[simp] theorem State.storeSample_frames (s : State) (b : Byte) :
    (s.storeSample b).frames = s.frames := rfl
@[simp] theorem State.storeSample_freeCtr (s : State) (b : Byte) :
    (s.storeSample b).freeCtr = s.freeCtr := rfl

/-! ## frameTick: the end of a frame (42_frame_parser.md R185, R186) -/

@[simp] theorem State.frameTick_st (s : State) :
    s.frameTick.st = s.st := rfl
@[simp] theorem State.frameTick_pos (s : State) :
    s.frameTick.pos = 0 := rfl
@[simp] theorem State.frameTick_nValid (s : State) :
    s.frameTick.nValid = s.nValid := rfl
@[simp] theorem State.frameTick_n (s : State) :
    s.frameTick.n = s.n := rfl
@[simp] theorem State.frameTick_mode (s : State) :
    s.frameTick.mode = s.mode := rfl
@[simp] theorem State.frameTick_amount (s : State) :
    s.frameTick.amount = s.amount := rfl
@[simp] theorem State.frameTick_evt (s : State) :
    s.frameTick.evt = s.evt := rfl
@[simp] theorem State.frameTick_fno (s : State) :
    s.frameTick.fno = (s.fno + 1) % 2 ^ s.cfg.fnoW := rfl
@[simp] theorem State.frameTick_hold (s : State) :
    s.frameTick.hold = s.hold := rfl
@[simp] theorem State.frameTick_batchOk (s : State) :
    s.frameTick.batchOk = s.batchOk := rfl
@[simp] theorem State.frameTick_cause (s : State) :
    s.frameTick.cause = s.cause := rfl
@[simp] theorem State.frameTick_tx (s : State) :
    s.frameTick.tx = s.tx := rfl
@[simp] theorem State.frameTick_mem (s : State) :
    s.frameTick.mem = s.mem := rfl
@[simp] theorem State.frameTick_cfg (s : State) :
    s.frameTick.cfg = s.cfg := rfl
@[simp] theorem State.frameTick_out (s : State) :
    s.frameTick.out = { s.out with evtDone := true } := rfl
@[simp] theorem State.frameTick_sched (s : State) :
    s.frameTick.sched = s.sched := rfl
@[simp] theorem State.frameTick_host (s : State) :
    s.frameTick.host = s.host := rfl
@[simp] theorem State.frameTick_rxq (s : State) :
    s.frameTick.rxq = s.rxq := rfl
@[simp] theorem State.frameTick_call (s : State) :
    s.frameTick.call = s.call := rfl
@[simp] theorem State.frameTick_frames (s : State) :
    s.frameTick.frames = s.frames + 1 := rfl
@[simp] theorem State.frameTick_freeCtr (s : State) :
    s.frameTick.freeCtr = s.freeCtr := rfl

end Sys2Proof.Machine
end

