-- ==== Sys2Proof/Laws/Codec.lean ====
section
/-! SUPPORT. The lemmas of the codec: the fields of a packed word, and the operand of a value field. -/

namespace Sys2Proof

/-- Splitting a packed word gives its three fields (40_encoder.md R112). -/
@[simp] theorem cweDecode_cwePack (code : Code) (sub : SubIx) (value : Value) :
    cweDecode (cwePack code sub value) = ⟨code, sub, value⟩ := by
  simp only [cweDecode, cwePack, CweFields.mk.injEq]
  refine ⟨?_, ?_, ?_⟩
  · ext i hi
    rw [BitVec.getElem_extractLsb', BitVec.getLsbD_append, if_neg (by omega), BitVec.getLsbD_append,
      if_neg (by omega)]
    rw [show 56 + i - 52 - 4 = i by omega, BitVec.getLsbD_eq_getElem hi]
  · ext i hi
    rw [BitVec.getElem_extractLsb', BitVec.getLsbD_append, if_neg (by omega), BitVec.getLsbD_append,
      if_pos (by omega)]
    rw [show 52 + i - 52 = i by omega, BitVec.getLsbD_eq_getElem hi]
  · ext i hi
    rw [BitVec.getElem_extractLsb', BitVec.getLsbD_append, if_pos (by omega)]
    rw [show 0 + i = i by omega, BitVec.getLsbD_eq_getElem hi]

/-- The operand a value field stands for encodes to that field (30_encoding.md R79). -/
@[simp] theorem valueField_toNat (value : Value) : valueField (value.toNat : Int) = value := by
  simp [valueField]

/-- Encoding the operand of a value field packs the field (40_encoder.md R101). -/
@[simp] theorem cweEncode_toNat (code : Code) (sub : SubIx) (value : Value) :
    cweEncode code sub (value.toNat : Int) = cwePack code sub value := by
  simp [cweEncode]

/-- The fields of an encoded operand (40_encoder.md R101, R112). -/
@[simp] theorem cweDecode_cweEncode (code : Code) (sub : SubIx) (operand : Int) :
    cweDecode (cweEncode code sub operand) = ⟨code, sub, valueField operand⟩ := by
  simp [cweEncode]

/-- The decoder refuses by name exactly the words whose code is unassigned. -/
theorem decodeFields_unassigned (f : CweFields) (h : 31 < f.code.toNat) :
    decodeFields f = .error (.unassignedCode f.code) := by
  unfold decodeFields
  split <;> first | omega | rfl

/-- A command that the opcode map answers has the three fields it was read from. -/
theorem decodeFields_ok {f : CweFields} {i : Instr} (h : decodeFields f = .ok i) :
    f = ⟨i.code, i.sub, i.value⟩ := by
  obtain ⟨code, sub, value⟩ := f
  have hcode : code = BitVec.ofNat 8 code.toNat := by simp
  unfold decodeFields at h
  split at h <;> rename_i hc <;> first
    | (cases h
       done)
    | (simp only [Except.ok.injEq] at h
       subst h
       simp only at hc
       rw [hc] at hcode
       rw [hcode]
       rfl)

end Sys2Proof
end

