-- ==== Sys2Proof/Laws/Memory.lean ====
section
/-! SUPPORT. The laws of `OUT`: a byte or a cell reads as it was last written, every other byte or cell
as before, and every memory operation keeps the canonical form. -/

namespace Sys2Proof.Machine

theorem memByte_memSetByte_self (m : Memory) (a : Nat) (v : Byte) :
    memByte (memSetByte m a v) a = some v := by
  induction m with
  | nil => simp [memSetByte, memByte]
  | cons e rest ih =>
    obtain ⟨b, w⟩ := e
    simp only [memSetByte]
    split
    · simp [memByte]
    · split
      · simp [memByte]
      · next _ hne =>
        simp only [memByte]
        rw [if_neg (fun h => hne h.symm), ih]

/-- Reading another byte gives what it gave before; no canonical form is needed for it. -/
theorem memByte_memSetByte_ne (m : Memory) (a x : Nat) (v : Byte) (h : x ≠ a) :
    memByte (memSetByte m a v) x = memByte m x := by
  induction m with
  | nil => simp [memSetByte, memByte, Ne.symm h]
  | cons e rest ih =>
    obtain ⟨b, w⟩ := e
    simp only [memSetByte]
    split
    · simp only [memByte]
      rw [if_neg (Ne.symm h)]
    · split
      · next _ hab => subst hab; simp only [memByte]; rw [if_neg (Ne.symm h), if_neg (Ne.symm h)]
      · simp only [memByte, ih]

theorem memByte_memSetByte (m : Memory) (a x : Nat) (v : Byte) :
    memByte (memSetByte m a v) x = if x = a then some v else memByte m x := by
  split
  · next h => rw [h, memByte_memSetByte_self]
  · next h => exact memByte_memSetByte_ne m a x v h

/-- The cell a write writes reads as the written sample. -/
theorem memReadCell_memWriteCell_self (m : Memory) (a : Nat) (v : Sample) :
    memReadCell (memWriteCell m a v) a = some v := by
  have hv : v.extractLsb' 8 8 ++ v.extractLsb' 0 8 = v := by
    ext i hi
    simp only [BitVec.getElem_append, BitVec.getElem_extractLsb']
    split
    · simp [BitVec.getLsbD_eq_getElem hi]
    · have : 8 + (i - 8) = i := by omega
      rw [this, BitVec.getLsbD_eq_getElem hi]
  unfold memReadCell memWriteCell
  rw [memByte_memSetByte_ne _ _ _ _ (by omega), memByte_memSetByte_self, memByte_memSetByte_self]
  simp only [hv]

/-- Every other cell reads as before. -/
theorem memReadCell_memWriteCell_ne (m : Memory) (a x : Nat) (v : Sample) (h : x ≠ a) :
    memReadCell (memWriteCell m a v) x = memReadCell m x := by
  simp only [memReadCell, memWriteCell, memByte_memSetByte]
  rw [if_neg (by omega), if_neg (by omega), if_neg (by omega), if_neg (by omega)]

theorem memReadCell_memWriteCell (m : Memory) (a x : Nat) (v : Sample) :
    memReadCell (memWriteCell m a v) x = if x = a then some v else memReadCell m x := by
  split
  · next h => rw [h, memReadCell_memWriteCell_self]
  · next h => exact memReadCell_memWriteCell_ne m a x v h

/-- A byte outside the two of the written cell reads as before. -/
theorem memByte_memWriteCell_ne (m : Memory) (a x : Nat) (v : Sample)
    (h0 : x ≠ 2 * a) (h1 : x ≠ 2 * a + 1) : memByte (memWriteCell m a v) x = memByte m x := by
  rw [memWriteCell, memByte_memSetByte_ne _ _ _ _ h1, memByte_memSetByte_ne _ _ _ _ h0]

/-! ## The canonical form -/

/-- Every listed address lies above `b`. -/
def Memory.above (m : Memory) (b : Nat) : Prop := ∀ e ∈ m, b < e.1

/-- A memory with a first entry is canonical exactly if the rest is and lies above that entry. -/
theorem Memory.wf_cons (e : Host.Cell) (m : Memory) :
    Memory.wf (e :: m) = true ↔ Memory.above m e.1 ∧ Memory.wf m = true := by
  induction m generalizing e with
  | nil => simp [Memory.wf, Memory.above]
  | cons f rest ih =>
    simp only [Memory.wf, Bool.and_eq_true, decide_eq_true_eq]
    constructor
    · rintro ⟨hlt, hwf⟩
      refine ⟨?_, hwf⟩
      intro x hx
      rcases List.mem_cons.mp hx with rfl | hx
      · exact hlt
      · exact Nat.lt_trans hlt (((ih f).mp hwf).1 x hx)
    · rintro ⟨habove, hwf⟩
      exact ⟨habove f (List.mem_cons_self ..), hwf⟩

theorem memSetByte_above (m : Memory) (a b : Nat) (v : Byte) (hm : Memory.above m b) (ha : b < a) :
    Memory.above (memSetByte m a v) b := by
  induction m with
  | nil => intro e he; simp only [memSetByte, List.mem_singleton] at he; subst he; exact ha
  | cons f rest ih =>
    obtain ⟨x, w⟩ := f
    have hrest : Memory.above rest b := fun e he => hm e (List.mem_cons_of_mem _ he)
    intro e he
    simp only [memSetByte] at he
    split at he
    · rcases List.mem_cons.mp he with rfl | he
      · exact ha
      · exact hm e he
    · split at he
      · rcases List.mem_cons.mp he with rfl | he
        · exact ha
        · exact hrest e he
      · rcases List.mem_cons.mp he with rfl | he
        · exact hm _ (List.mem_cons_self ..)
        · exact ih hrest e he

/-- Writing a byte keeps the canonical form. -/
theorem memSetByte_wf (m : Memory) (a : Nat) (v : Byte) (h : Memory.wf m = true) :
    Memory.wf (memSetByte m a v) = true := by
  induction m with
  | nil => rfl
  | cons f rest ih =>
    obtain ⟨x, w⟩ := f
    have hcons := (Memory.wf_cons (x, w) rest).mp h
    simp only [memSetByte]
    split
    · next hlt =>
      refine (Memory.wf_cons _ _).mpr ⟨?_, h⟩
      intro e he
      rcases List.mem_cons.mp he with rfl | he
      · exact hlt
      · exact Nat.lt_trans hlt (hcons.1 e he)
    · split
      · next heq => subst heq; exact (Memory.wf_cons _ _).mpr hcons
      · next hnlt hne =>
        exact (Memory.wf_cons _ _).mpr
          ⟨memSetByte_above rest a x v hcons.1 (by omega), ih hcons.2⟩

/-- Writing a cell keeps the canonical form. -/
theorem memWriteCell_wf (m : Memory) (a : Nat) (v : Sample) (h : Memory.wf m = true) :
    Memory.wf (memWriteCell m a v) = true :=
  memSetByte_wf _ _ _ (memSetByte_wf _ _ _ h)

/-- The memory after reset is canonical. -/
theorem reset_mem_wf : Memory.wf State.reset.mem = true := rfl

/-- An address below every listed one has no value. -/
theorem memByte_of_above (m : Memory) (b : Nat) (h : Memory.above m b) : memByte m b = none := by
  induction m with
  | nil => rfl
  | cons f rest ih =>
    have hf : b < f.1 := h f (List.mem_cons_self ..)
    simp only [memByte]
    rw [if_neg (by omega)]
    exact ih fun e he => h e (List.mem_cons_of_mem _ he)

/-- Two canonical memories that read alike at every byte are equal. -/
theorem Memory.ext_of_wf (m k : Memory) (hm : Memory.wf m = true) (hk : Memory.wf k = true)
    (h : ∀ a, memByte m a = memByte k a) : m = k := by
  induction m generalizing k with
  | nil =>
    cases k with
    | nil => rfl
    | cons f rest => have := h f.1; simp [memByte] at this
  | cons e m ih =>
    cases k with
    | nil => have := h e.1; simp [memByte] at this
    | cons f k =>
      obtain ⟨hem, hmwf⟩ := (Memory.wf_cons e m).mp hm
      obtain ⟨hfk, hkwf⟩ := (Memory.wf_cons f k).mp hk
      have he := h e.1
      have hf := h f.1
      simp only [memByte, if_true] at he hf
      have hef : f.1 = e.1 := by
        by_contra hne
        rw [if_neg hne] at he
        rw [if_neg (fun hh => hne hh.symm)] at hf
        rcases Nat.lt_or_gt_of_ne hne with hlt | hgt
        · rw [memByte_of_above m f.1 (fun x hx => Nat.lt_trans hlt (hem x hx))] at hf
          simp at hf
        · rw [memByte_of_above k e.1 (fun x hx => Nat.lt_trans hgt (hfk x hx))] at he
          simp at he
      rw [if_pos hef] at he
      have heq : e = f := by
        obtain ⟨ea, ev⟩ := e
        obtain ⟨fa, fv⟩ := f
        simp only [Option.some.injEq] at he hef
        rw [hef, he]
      subst heq
      congr 1
      refine ih k hmwf hkwf fun a => ?_
      have ha := h a
      simp only [memByte] at ha
      by_cases hae : e.1 = a
      · subst hae
        rw [memByte_of_above m e.1 hem, memByte_of_above k e.1 hfk]
      · rwa [if_neg hae, if_neg hae] at ha

end Sys2Proof.Machine
end

