-- ==== Sys2Proof/Laws/PerInstr.lean ====
section
/-! SUPPORT. Statements about every command, one lemma a constructor. -/

namespace Sys2Proof.Laws

/-- The three fields of a command's word are the command's, its code is an assigned one, and the
opcode map takes them back to the command (30_encoding.md R71, R83). -/
def EncodedFields.Statement (i : Instr) : Prop :=
  cweDecode (encode i) = ⟨i.code, i.sub, i.value⟩ ∧ i.code.toNat ≤ 31 ∧
    decodeFields ⟨i.code, i.sub, i.value⟩ = .ok i

theorem EncodedFields.rstHist (sub : SubIx) (value : Value) :
    EncodedFields.Statement (.rstHist sub value) := ⟨cweDecode_cwePack _ _ _, Nat.le_of_ble_eq_true rfl, rfl⟩

theorem EncodedFields.rstTimer (sub : SubIx) (value : Value) :
    EncodedFields.Statement (.rstTimer sub value) := ⟨cweDecode_cwePack _ _ _, Nat.le_of_ble_eq_true rfl, rfl⟩

theorem EncodedFields.rstOsc (sub : SubIx) (value : Value) :
    EncodedFields.Statement (.rstOsc sub value) := ⟨cweDecode_cwePack _ _ _, Nat.le_of_ble_eq_true rfl, rfl⟩

theorem EncodedFields.rstGen (sub : SubIx) (value : Value) :
    EncodedFields.Statement (.rstGen sub value) := ⟨cweDecode_cwePack _ _ _, Nat.le_of_ble_eq_true rfl, rfl⟩

theorem EncodedFields.setRate (sub : SubIx) (value : Value) :
    EncodedFields.Statement (.setRate sub value) := ⟨cweDecode_cwePack _ _ _, Nat.le_of_ble_eq_true rfl, rfl⟩

theorem EncodedFields.setNeg (sub : SubIx) (value : Value) :
    EncodedFields.Statement (.setNeg sub value) := ⟨cweDecode_cwePack _ _ _, Nat.le_of_ble_eq_true rfl, rfl⟩

theorem EncodedFields.setPhaDelay (sub : SubIx) (value : Value) :
    EncodedFields.Statement (.setPhaDelay sub value) := ⟨cweDecode_cwePack _ _ _, Nat.le_of_ble_eq_true rfl, rfl⟩

theorem EncodedFields.setPhaMin (sub : SubIx) (value : Value) :
    EncodedFields.Statement (.setPhaMin sub value) := ⟨cweDecode_cwePack _ _ _, Nat.le_of_ble_eq_true rfl, rfl⟩

theorem EncodedFields.setPhaMax (sub : SubIx) (value : Value) :
    EncodedFields.Statement (.setPhaMax sub value) := ⟨cweDecode_cwePack _ _ _, Nat.le_of_ble_eq_true rfl, rfl⟩

theorem EncodedFields.setTimer (sub : SubIx) (value : Value) :
    EncodedFields.Statement (.setTimer sub value) := ⟨cweDecode_cwePack _ _ _, Nat.le_of_ble_eq_true rfl, rfl⟩

theorem EncodedFields.setTimerMode (sub : SubIx) (value : Value) :
    EncodedFields.Statement (.setTimerMode sub value) := ⟨cweDecode_cwePack _ _ _, Nat.le_of_ble_eq_true rfl, rfl⟩

theorem EncodedFields.rdStatus (sub : SubIx) (value : Value) :
    EncodedFields.Statement (.rdStatus sub value) := ⟨cweDecode_cwePack _ _ _, Nat.le_of_ble_eq_true rfl, rfl⟩

theorem EncodedFields.rdHist (sub : SubIx) (value : Value) :
    EncodedFields.Statement (.rdHist sub value) := ⟨cweDecode_cwePack _ _ _, Nat.le_of_ble_eq_true rfl, rfl⟩

theorem EncodedFields.setTrgSrc (sub : SubIx) (value : Value) :
    EncodedFields.Statement (.setTrgSrc sub value) := ⟨cweDecode_cwePack _ _ _, Nat.le_of_ble_eq_true rfl, rfl⟩

theorem EncodedFields.setTrgSlope (sub : SubIx) (value : Value) :
    EncodedFields.Statement (.setTrgSlope sub value) := ⟨cweDecode_cwePack _ _ _, Nat.le_of_ble_eq_true rfl, rfl⟩

theorem EncodedFields.setTrgMode (sub : SubIx) (value : Value) :
    EncodedFields.Statement (.setTrgMode sub value) := ⟨cweDecode_cwePack _ _ _, Nat.le_of_ble_eq_true rfl, rfl⟩

theorem EncodedFields.setTrgLevel (sub : SubIx) (value : Value) :
    EncodedFields.Statement (.setTrgLevel sub value) := ⟨cweDecode_cwePack _ _ _, Nat.le_of_ble_eq_true rfl, rfl⟩

theorem EncodedFields.setPre (sub : SubIx) (value : Value) :
    EncodedFields.Statement (.setPre sub value) := ⟨cweDecode_cwePack _ _ _, Nat.le_of_ble_eq_true rfl, rfl⟩

theorem EncodedFields.setTot (sub : SubIx) (value : Value) :
    EncodedFields.Statement (.setTot sub value) := ⟨cweDecode_cwePack _ _ _, Nat.le_of_ble_eq_true rfl, rfl⟩

theorem EncodedFields.startOsc (sub : SubIx) (value : Value) :
    EncodedFields.Statement (.startOsc sub value) := ⟨cweDecode_cwePack _ _ _, Nat.le_of_ble_eq_true rfl, rfl⟩

theorem EncodedFields.rdOsc (sub : SubIx) (value : Value) :
    EncodedFields.Statement (.rdOsc sub value) := ⟨cweDecode_cwePack _ _ _, Nat.le_of_ble_eq_true rfl, rfl⟩

theorem EncodedFields.setFall (sub : SubIx) (value : Value) :
    EncodedFields.Statement (.setFall sub value) := ⟨cweDecode_cwePack _ _ _, Nat.le_of_ble_eq_true rfl, rfl⟩

theorem EncodedFields.setRise (sub : SubIx) (value : Value) :
    EncodedFields.Statement (.setRise sub value) := ⟨cweDecode_cwePack _ _ _, Nat.le_of_ble_eq_true rfl, rfl⟩

theorem EncodedFields.setLower (sub : SubIx) (value : Value) :
    EncodedFields.Statement (.setLower sub value) := ⟨cweDecode_cwePack _ _ _, Nat.le_of_ble_eq_true rfl, rfl⟩

theorem EncodedFields.setUpper (sub : SubIx) (value : Value) :
    EncodedFields.Statement (.setUpper sub value) := ⟨cweDecode_cwePack _ _ _, Nat.le_of_ble_eq_true rfl, rfl⟩

theorem EncodedFields.setGenRate (sub : SubIx) (value : Value) :
    EncodedFields.Statement (.setGenRate sub value) := ⟨cweDecode_cwePack _ _ _, Nat.le_of_ble_eq_true rfl, rfl⟩

theorem EncodedFields.setDist (sub : SubIx) (value : Value) :
    EncodedFields.Statement (.setDist sub value) := ⟨cweDecode_cwePack _ _ _, Nat.le_of_ble_eq_true rfl, rfl⟩

theorem EncodedFields.rstSpec (sub : SubIx) (value : Value) :
    EncodedFields.Statement (.rstSpec sub value) := ⟨cweDecode_cwePack _ _ _, Nat.le_of_ble_eq_true rfl, rfl⟩

theorem EncodedFields.setBin (sub : SubIx) (value : Value) :
    EncodedFields.Statement (.setBin sub value) := ⟨cweDecode_cwePack _ _ _, Nat.le_of_ble_eq_true rfl, rfl⟩

theorem EncodedFields.startGen (sub : SubIx) (value : Value) :
    EncodedFields.Statement (.startGen sub value) := ⟨cweDecode_cwePack _ _ _, Nat.le_of_ble_eq_true rfl, rfl⟩

theorem EncodedFields.stopGen (sub : SubIx) (value : Value) :
    EncodedFields.Statement (.stopGen sub value) := ⟨cweDecode_cwePack _ _ _, Nat.le_of_ble_eq_true rfl, rfl⟩

theorem EncodedFields.startAcq (sub : SubIx) (value : Value) :
    EncodedFields.Statement (.startAcq sub value) := ⟨cweDecode_cwePack _ _ _, Nat.le_of_ble_eq_true rfl, rfl⟩

end Sys2Proof.Laws
end

