-- ==== Sys2Proof/Laws/Ops.lean ====
section
/-! SUPPORT. What each shared operation can do, said once: the provers cite these lemmas instead of
unfolding the operations. -/

namespace Sys2Proof.Machine

/-! ## Commands -/

/-- A command in `IDLE` appends its word (40_encoder.md R110). -/
theorem cweSend_idle (code : Code) (sub : SubIx) (operand : Int) (s : State) (h : s.st = .idle) :
    cweSend code sub operand s = .next (s.txWord (cweEncode code sub operand)) := if_pos h

/-- A command in any other state waits, its word shown (40_encoder.md R100, R110). -/
theorem cweSend_wait (code : Code) (sub : SubIx) (operand : Int) (s : State) (h : s.st ≠ .idle) :
    cweSend code sub operand s = .next (s.showWord (cweEncode code sub operand)) := if_neg h

/-- The two things a command can do. -/
theorem cweSend_cases {code : Code} {sub : SubIx} {operand : Int} {s t : State}
    (h : cweSend code sub operand s = .next t) :
    (s.st = .idle ∧ t = s.txWord (cweEncode code sub operand)) ∨
    (s.st ≠ .idle ∧ t = s.showWord (cweEncode code sub operand)) := by
  by_cases hs : s.st = .idle
  · rw [cweSend_idle _ _ _ _ hs] at h; cases h; exact .inl ⟨hs, rfl⟩
  · rw [cweSend_wait _ _ _ _ hs] at h; cases h; exact .inr ⟨hs, rfl⟩

/-- A command always answers a next state. -/
theorem cweSend_next (code : Code) (sub : SubIx) (operand : Int) (s : State) :
    ∃ t, cweSend code sub operand s = .next t := by
  by_cases hs : s.st = .idle
  · exact ⟨_, cweSend_idle _ _ _ _ hs⟩
  · exact ⟨_, cweSend_wait _ _ _ _ hs⟩

/-- Every command of the table is a `CWE.SEND` of its own three fields. -/
theorem exec_eq_cweSend (i : Instr) (s : State) :
    exec i s = cweSend i.code i.sub (i.value.toNat : Int) s := by cases i <;> rfl

/-- Whatever the code, sending a command is a `CWE.SEND` of its operand (40_encoder.md R102, R110). -/
theorem sendCommand_eq_cweSend (code : Code) (sub : SubIx) (operand : Int) (s : State) :
    sendCommand code sub operand s = cweSend code sub operand s := by
  unfold sendCommand
  split
  · next i hi =>
    rw [exec_eq_cweSend]
    have hf : (⟨code, sub, valueField operand⟩ : CweFields) = ⟨i.code, i.sub, i.value⟩ :=
      decodeFields_ok (by rw [← cweDecode_cweEncode]; exact hi)
    rw [CweFields.mk.injEq] at hf
    obtain ⟨hc, hs, hv⟩ := hf
    have hw : cweEncode i.code i.sub (i.value.toNat : Int) = cweEncode code sub operand := by
      rw [cweEncode_toNat, ← hc, ← hs, ← hv]; rfl
    simp only [cweSend, hw]
  · rfl

/-! ## Rejects -/

/-- Why `AFP.CFG` is accepted (42_frame_parser.md R173). -/
theorem cfgReject_eq_eNone (v : Nat) (s : State) :
    cfgReject v s = .eNone ↔ s.st = .idle ∧ v ≤ s.cfg.maximumSamples := by
  unfold cfgReject
  cases s.st <;> simp

/-- Why `AFP.START_BULK` is accepted (42_frame_parser.md R174). -/
theorem startReject_eq_eNone (s : State) :
    startReject s = .eNone ↔ s.st = .idle ∧ s.nValid = true ∧ 0 < s.fbytes := by
  unfold startReject
  cases s.st <;> simp
  cases s.nValid <;> simp

/-- Why `AFP.START_CONT` is accepted (42_frame_parser.md R175). -/
theorem startContReject_eq_eNone (a : Count) (s : State) :
    startContReject a s = .eNone ↔
      (s.st = .idle ∧ s.nValid = true ∧ 0 < s.fbytes) ∧ a ≠ 0 := by
  rw [← startReject_eq_eNone]
  unfold startContReject
  cases h : startReject s <;> simp

/-- Why `AFP.PULL` is accepted (42_frame_parser.md R177). -/
theorem pullReject_eq_eNone (s : State) : pullReject s = .eNone ↔ s.st = .wait := by
  unfold pullReject
  cases s.st <;> simp

/-- Why `AFP.CANCEL` is accepted (42_frame_parser.md R189). -/
theorem cancelReject_eq_eNone (s : State) : cancelReject s = .eNone ↔ s.st ≠ .halt := by
  unfold cancelReject
  cases s.st <;> simp

/-! ## Host operations of the parser: accepted, or rejected with nothing changed -/

theorem afpCfg_cases (v : Nat) (s : State) :
    (s.st = .idle ∧ v ≤ s.cfg.maximumSamples ∧
      afpCfg v s = { s with n := v, nValid := true, batchOk := false }) ∨
    (cfgReject v s ≠ .eNone ∧ afpCfg v s = s.reject (cfgReject v s)) := by
  by_cases h : cfgReject v s = .eNone
  · have hc := (cfgReject_eq_eNone v s).mp h
    exact .inl ⟨hc.1, hc.2, by simp only [afpCfg, h]⟩
  · refine .inr ⟨h, ?_⟩
    unfold afpCfg
    split
    · contradiction
    · rfl

theorem afpStartBulk_cases (a : Count) (s : State) :
    (s.st = .idle ∧ s.nValid = true ∧ 0 < s.fbytes ∧
      afpStartBulk a s = s.beginAcquisition .bulk a .cmd) ∨
    (startReject s ≠ .eNone ∧ afpStartBulk a s = s.reject (startReject s)) := by
  by_cases h : startReject s = .eNone
  · obtain ⟨h1, h2, h3⟩ := (startReject_eq_eNone s).mp h
    exact .inl ⟨h1, h2, h3, by simp only [afpStartBulk, h]⟩
  · refine .inr ⟨h, ?_⟩
    unfold afpStartBulk
    split
    · contradiction
    · rfl

theorem afpStartCont_cases (a : Count) (s : State) :
    (s.st = .idle ∧ s.nValid = true ∧ 0 < s.fbytes ∧ a ≠ 0 ∧
      afpStartCont a s = s.beginAcquisition .cont a .wait) ∨
    (startContReject a s ≠ .eNone ∧ afpStartCont a s = s.reject (startContReject a s)) := by
  by_cases h : startContReject a s = .eNone
  · obtain ⟨⟨h1, h2, h3⟩, h4⟩ := (startContReject_eq_eNone a s).mp h
    exact .inl ⟨h1, h2, h3, h4, by simp only [afpStartCont, h]⟩
  · refine .inr ⟨h, ?_⟩
    unfold afpStartCont
    split
    · contradiction
    · rfl

theorem afpPull_cases (s : State) :
    (s.st = .wait ∧ s.evt = 0 ∧ afpPull s = { s with st := .cmd }) ∨
    (s.st = .wait ∧ s.evt ≠ 0 ∧ afpPull s = { s with st := .rx, pos := 0 }) ∨
    (pullReject s ≠ .eNone ∧ afpPull s = s.reject (pullReject s)) := by
  by_cases h : pullReject s = .eNone
  · have hw := (pullReject_eq_eNone s).mp h
    by_cases he : s.evt = 0
    · exact .inl ⟨hw, he, by simp only [afpPull, h, if_pos he]⟩
    · exact .inr (.inl ⟨hw, he, by simp only [afpPull, h, if_neg he]⟩)
  · refine .inr (.inr ⟨h, ?_⟩)
    unfold afpPull
    split
    · contradiction
    · rfl

theorem afpCancel_cases (s : State) :
    (s.st ≠ .halt ∧ afpCancel s = s.raiseHalt .closed) ∨
    (s.st = .halt ∧ afpCancel s = s.reject .eHalted) := by
  unfold afpCancel cancelReject
  cases h : s.st <;> simp

/-! ## Sequencer, device and session -/

theorem afpIssue_cases (s : State) :
    (s.st = .cmd ∧ s.mode = .bulk ∧ s.amount = 0 ∧
      afpIssue s = (s.txWord s.startWord).completeBatch) ∨
    (s.st = .cmd ∧ (s.mode = .cont ∨ s.amount ≠ 0) ∧
      afpIssue s = { s.txWord s.startWord with st := .rx, pos := 0 }) ∨
    (s.st ≠ .cmd ∧ afpIssue s = s) := by
  by_cases h : s.st = .cmd
  · by_cases hz : s.mode = .bulk ∧ s.amount = 0
    · exact .inl ⟨h, hz.1, hz.2, by simp only [afpIssue, if_pos h, if_pos hz]⟩
    · refine .inr (.inl ⟨h, ?_, by simp only [afpIssue, if_pos h, if_neg hz]⟩)
      cases hm : s.mode with
      | cont => exact .inl rfl
      | bulk => exact .inr fun ha => hz ⟨hm, ha⟩
  · exact .inr (.inr ⟨h, by simp only [afpIssue, if_neg h]⟩)

/-- What step 1 of a received byte can do (42_frame_parser.md R180 to R184). -/
theorem disposeByte_cases (s : State) (b : Byte) :
    (s.pos < s.sbytes ∧ s.pos % 2 = 0 ∧ s.disposeByte b = { s with hold := b }) ∨
    (s.pos < s.sbytes ∧ s.pos % 2 = 1 ∧ s.disposeByte b = s.storeSample b) ∨
    (s.sbytes ≤ s.pos ∧ s.disposeByte b = s) := by
  by_cases h : s.pos < s.sbytes
  · by_cases he : s.pos % 2 = 0
    · exact .inl ⟨h, he, by simp [State.disposeByte, State.inSample, h, he]⟩
    · exact .inr (.inl ⟨h, by omega, by simp [State.disposeByte, State.inSample, h, he]⟩)
  · exact .inr (.inr ⟨by omega, by simp [State.disposeByte, State.inSample, h]⟩)

/-- What steps 2 and 3 of a received byte can do (42_frame_parser.md R185, R186, R190). -/
theorem advance_cases (s : State) :
    (s.pos + 1 < s.fbytes ∧ s.advance = { s with pos := s.pos + 1 }) ∨
    (s.fbytes ≤ s.pos + 1 ∧ s.mode = .bulk ∧ s.evt + 1 = s.amount ∧
      s.advance = { s.frameTick with evt := s.evt + 1 }.completeBatch) ∨
    (s.fbytes ≤ s.pos + 1 ∧ s.mode = .bulk ∧ s.evt + 1 ≠ s.amount ∧
      s.advance = { s.frameTick with evt := s.evt + 1 }) ∨
    (s.fbytes ≤ s.pos + 1 ∧ s.mode = .cont ∧ s.advance = s.closeContFrame) := by
  by_cases h : s.pos + 1 < s.fbytes
  · exact .inl ⟨h, by simp [State.advance, h]⟩
  · refine .inr ?_
    have hle : s.fbytes ≤ s.pos + 1 := by omega
    cases hm : s.mode with
    | bulk =>
      by_cases he : s.evt + 1 = s.amount
      · exact .inl ⟨hle, rfl, he, by
          simp only [State.advance, if_neg h, State.closeFrame, hm, State.closeBulkFrame, if_pos he]⟩
      · exact .inr (.inl ⟨hle, rfl, he,
          by
          simp only [State.advance, if_neg h, State.closeFrame, hm, State.closeBulkFrame, if_neg he]⟩)
    | cont => exact .inr (.inr ⟨hle, rfl, by simp [State.advance, h, State.closeFrame, hm]⟩)

/-- Step 1 of a received byte writes `hold`, `OUT` and the sample port only. -/
theorem disposeByte_frame (s : State) (b : Byte) :
    s.disposeByte b =
      { s with hold := (s.disposeByte b).hold, mem := (s.disposeByte b).mem, out := (s.disposeByte b).out } := by
  rcases disposeByte_cases s b with ⟨_, _, h⟩ | ⟨_, _, h⟩ | ⟨_, h⟩ <;> (simp only [h]; try rfl)

theorem afpRxByte_rx (b : Byte) (s : State) (h : s.st = .rx) :
    afpRxByte b s = (s.disposeByte b).advance := if_pos h

theorem afpRxByte_other (b : Byte) (s : State) (h : s.st ≠ .rx) : afpRxByte b s = s := if_neg h

theorem afpRxErr_cases (s : State) :
    (s.st = .rx ∧ afpRxErr s = s.raiseHalt .ioRx) ∨ (s.st ≠ .rx ∧ afpRxErr s = s) := by
  by_cases h : s.st = .rx
  · exact .inl ⟨h, if_pos h⟩
  · exact .inr ⟨h, if_neg h⟩

theorem afpTxErr_cases (s : State) :
    (s.st = .cmd ∧ afpTxErr s = s.raiseHalt .ioTx) ∨ (s.st ≠ .cmd ∧ afpTxErr s = s) := by
  by_cases h : s.st = .cmd
  · exact .inl ⟨h, if_pos h⟩
  · exact .inr ⟨h, if_neg h⟩

theorem cweSendFailed_cases (s : State) :
    (s.st = .idle ∧ cweSendFailed s = (s.raiseHalt .ioTx).failCall .connectionError) ∨
    (s.st ≠ .idle ∧ cweSendFailed s = s) := by
  by_cases h : s.st = .idle
  · exact .inl ⟨h, if_pos h⟩
  · exact .inr ⟨h, if_neg h⟩

/-! ## The host's turn -/

theorem offerOp_cases (op : HostOp) (s : State) :
    (∃ code sub operand, op = .send code sub operand ∧
      offerOp op s = s.showWord (cweEncode code sub operand)) ∨ offerOp op s = s := by
  cases op
  case send code sub operand => exact .inl ⟨code, sub, operand, rfl, rfl⟩
  all_goals exact .inr rfl

/-- What the host does with an operation: it waits, or runs it. -/
theorem tryHostOp_cases {op : HostOp} {s taken : State} {o : Host.Outcome State Fault Refusal}
    (h : tryHostOp op s taken = o) :
    (hostWaits op s = true ∧ o = .next (offerOp op s)) ∨
    (hostWaits op s = false ∧ o = runHostOp op taken) := by
  subst h
  unfold tryHostOp
  cases hostWaits op s <;> simp

/-- What the host's turn does: nothing is pending, the call in progress is broken, or an operation is
tried, of the call in progress before the pending ones. -/
theorem hostTurn_cases {s : State} {o : Host.Outcome State Fault Refusal} (h : hostTurn s = o) :
    (s.call = [] ∧ s.host = [] ∧ o = .next s) ∨
    (∃ op rest, s.call = op :: rest ∧ callBroken op s = true ∧
      o = .next (s.failCall .connectionError)) ∨
    (∃ op rest, s.call = op :: rest ∧ callBroken op s = false ∧
      o = tryHostOp op s { s with call := rest }) ∨
    (∃ op rest, s.call = [] ∧ s.host = op :: rest ∧ o = tryHostOp op s { s with host := rest }) := by
  subst h
  unfold hostTurn
  split
  · next op rest hc =>
    cases hb : callBroken op s
    · exact .inr (.inr (.inl ⟨op, rest, hc, hb, rfl⟩))
    · exact .inr (.inl ⟨op, rest, hc, hb, rfl⟩)
  · next hc =>
    split
    · next hh => exact .inl ⟨hc, hh, rfl⟩
    · next op rest hh => exact .inr (.inr (.inr ⟨op, rest, hc, hh, rfl⟩))

/-! ## The consumer -/

/-- A read of the consumer answers a next state with its data, or faults (20_memory.md R52). -/
theorem consumerRead_cases (f c i : Nat) (s : State) :
    (s.hasCell c i = true ∧ ∃ v, s.sampleAt f c i = some v ∧
      consumerRead f c i s = .next { s with out := { s.out with readData := some v } }) ∨
    (s.hasCell c i = true ∧ s.sampleAt f c i = none ∧
      consumerRead f c i s = .next { s with
        out := { s.out with readData := some (Config.undefinedSample s.freeCtr) }
        freeCtr := s.freeCtr + 1 }) ∨
    (s.hasCell c i = false ∧ consumerRead f c i s = .fault .noSuchCell) := by
  by_cases h : s.hasCell c i = true
  · cases hs : s.sampleAt f c i with
    | some v => exact .inl ⟨h, v, rfl, by simp [consumerRead, h, hs]⟩
    | none => exact .inr (.inl ⟨h, rfl, by simp [consumerRead, h, hs]⟩)
  · exact .inr (.inr ⟨by simpa using h, by simp [consumerRead, h]⟩)

/-- An operand the caller's domain check lets through is read back from the value field. -/
theorem fieldOk_of_domainOk {code : Code} {v : Int} (h : domainOk code v = true) :
    fieldOk code (valueField v) = true := by
  simp only [domainOk, Bool.and_eq_true, decide_eq_true_eq] at h
  obtain ⟨⟨low, high⟩, member⟩ := h
  have nat : ((BitVec.ofInt 52 v).toNat : Int) = v % 2 ^ 52 := by
    simp only [BitVec.toNat_ofInt]; omega
  rcases lt_or_ge v 0 with neg | pos
  · have : (valueField v).toInt = v := by
      simp only [valueField, BitVec.toInt_eq_toNat_cond]; omega
    simp [fieldOk, this, member]
  · have : ((valueField v).toNat : Int) = v := by simp only [valueField]; omega
    simp [fieldOk, this, member]

end Sys2Proof.Machine
end

