-- ==== Sys2Proof/Laws/Step.lean ====
section
/-! SUPPORT. What one step can do, said once: a step moves the model's own bookkeeping (the turns, the
host's pending operations, the oracle's bytes, the pulses) and performs one primitive operation. Every
invariant of the registers follows from one lemma per primitive. -/

namespace Sys2Proof.Machine

/-- A state with other bookkeeping: the pulses low, other turns, pending operations and bytes. -/
def State.rebook (s : State) (sched : List Turn) (host call : List HostOp) (rxq : List Byte) : State :=
  { s with out := quietOutputs, sched := sched, host := host, call := call, rxq := rxq }

/-- The primitive operations a step performs, each from a state with its pulses low. -/
inductive Primitive (u : State) : State → Prop
  | stay : Primitive u u
  | tellCaller (e : CallerError) : Primitive u (u.tellCaller e)
  | showWord (w : Word64) : Primitive u (u.showWord w)
  | send (w : Word64) (h : u.st = .idle) : Primitive u (u.txWord w)
  | sendFailed : Primitive u (cweSendFailed u)
  | sendFailedShown (w : Word64) : Primitive u (cweSendFailed (u.showWord w))
  | cfg (v : Nat) : Primitive u (afpCfg v u)
  | startBulk (a : Count) : Primitive u (afpStartBulk a u)
  | startCont (a : Count) : Primitive u (afpStartCont a u)
  | pull : Primitive u (afpPull u)
  | issue : Primitive u (afpIssue u)
  | rxByte (b : Byte) : Primitive u (afpRxByte b u)
  | rxErr : Primitive u (afpRxErr u)
  | txErr : Primitive u (afpTxErr u)
  | cancel : Primitive u (afpCancel u)
  | readCovered (v : Sample) : Primitive u { u with out := { u.out with readData := some v } }
  | readFree : Primitive u { u with
      out := { u.out with readData := some (Config.undefinedSample u.freeCtr) }
      freeCtr := u.freeCtr + 1 }
  | reset : Primitive u u.resetBlock

/-- A primitive after a change of the bookkeeping of `s`. -/
def Moves (s t : State) : Prop := ∃ sched host call rxq, Primitive (s.rebook sched host call rxq) t

theorem moves_of_primitive {s t : State} (h : Primitive s t) (hq : s.out = quietOutputs) :
    Moves s t := by
  refine ⟨s.sched, s.host, s.call, s.rxq, ?_⟩
  have : s.rebook s.sched s.host s.call s.rxq = s := by
    unfold State.rebook; rw [← hq]
  rwa [this]

/-- Other bookkeeping before a move is no more than a move. -/
theorem moves_of_rebook {s t : State} {sched : List Turn} {host call : List HostOp} {rxq : List Byte}
    (h : Moves (s.rebook sched host call rxq) t) : Moves s t := by
  obtain ⟨a, b, c, d, h⟩ := h
  exact ⟨a, b, c, d, h⟩

/-- The same, for a state that differs from one with its pulses low in its bookkeeping only. -/
theorem moves_of_bookkeeping {s u t : State} (hq : s.out = quietOutputs)
    (hu : u = { s with sched := u.sched, host := u.host, call := u.call, rxq := u.rxq })
    (h : Moves u t) : Moves s t := by
  have : u = s.rebook u.sched u.host u.call u.rxq := by
    rw [State.rebook, ← hq]; exact hu
  rw [this] at h
  exact moves_of_rebook h

/-- A failed caller-level operation is an error for the caller after a change of the bookkeeping. -/
theorem failCall_moves (e : CallerError) (s : State) (hq : s.out = quietOutputs) :
    Moves s (s.failCall e) :=
  moves_of_bookkeeping (u := { s with call := [] }) hq rfl
    (moves_of_primitive (.tellCaller e) hq)

theorem sendCommand_moves {code : Code} {sub : SubIx} {operand : Int} {s t : State}
    (hq : s.out = quietOutputs) (h : sendCommand code sub operand s = .next t) : Moves s t := by
  rw [sendCommand_eq_cweSend] at h
  rcases cweSend_cases h with ⟨hs, rfl⟩ | ⟨_, rfl⟩
  · exact moves_of_primitive (.send _ hs) hq
  · exact moves_of_primitive (.showWord _) hq

theorem runExpansion_moves (e : Except CallerError (List HostOp)) (s : State)
    (hq : s.out = quietOutputs) : Moves s (runExpansion e s) := by
  unfold runExpansion
  split
  · next ops =>
    exact moves_of_bookkeeping (u := { s with call := ops ++ s.call }) hq rfl
      (moves_of_primitive .stay hq)
  · exact moves_of_primitive (.tellCaller _) hq

theorem runHostOp_moves {op : HostOp} {s t : State} (hq : s.out = quietOutputs)
    (h : runHostOp op s = .next t) : Moves s t := by
  cases op <;> simp only [runHostOp, Host.Outcome.next.injEq] at h
  case send => exact sendCommand_moves hq h
  case encode => subst h; exact moves_of_primitive (.showWord _) hq
  case cfg => subst h; exact moves_of_primitive (.cfg _) hq
  case startBulk => subst h; exact moves_of_primitive (.startBulk _) hq
  case startCont => subst h; exact moves_of_primitive (.startCont _) hq
  case pull => subst h; exact moves_of_primitive .pull hq
  case cancel => subst h; exact moves_of_primitive .cancel hq
  case read f c i =>
    rcases consumerRead_cases f c i s with ⟨_, v, _, hr⟩ | ⟨_, _, hr⟩ | ⟨_, hr⟩ <;> rw [hr] at h <;>
      cases h
    · exact moves_of_primitive (.readCovered v) hq
    · exact moves_of_primitive .readFree hq
  case awaitBatch =>
    subst h
    unfold endAwaitBatch
    split
    · split
      · exact moves_of_primitive .stay hq
      · exact failCall_moves _ _ hq
    · split
      · exact moves_of_primitive .stay hq
      · exact failCall_moves _ _ hq
    all_goals exact moves_of_primitive .stay hq
  case awaitFrame =>
    subst h
    unfold endAwaitFrame
    split
    · exact failCall_moves _ _ hq
    · exact failCall_moves _ _ hq
    all_goals exact moves_of_primitive .stay hq
  all_goals (subst h; exact runExpansion_moves _ s hq)

theorem tryHostOp_moves {op : HostOp} {s taken t : State} (hq : s.out = quietOutputs)
    (hu : taken = { s with
      sched := taken.sched, host := taken.host, call := taken.call, rxq := taken.rxq })
    (h : tryHostOp op s taken = .next t) : Moves s t := by
  rcases tryHostOp_cases h with ⟨_, ho⟩ | ⟨_, ho⟩
  · cases ho
    rcases offerOp_cases op s with ⟨_, _, _, _, hw⟩ | hw <;> rw [hw]
    · exact moves_of_primitive (.showWord _) hq
    · exact moves_of_primitive .stay hq
  · exact moves_of_bookkeeping hq hu (runHostOp_moves (by rw [hu]; exact hq) ho.symm)

theorem hostTurn_moves {s t : State} (hq : s.out = quietOutputs) (h : hostTurn s = .next t) :
    Moves s t := by
  rcases hostTurn_cases h with ⟨_, _, ho⟩ | ⟨_, _, _, _, ho⟩ | ⟨_, _, _, _, ho⟩ | ⟨_, _, _, _, ho⟩
  · cases ho; exact moves_of_primitive .stay hq
  · cases ho; exact failCall_moves _ _ hq
  · exact tryHostOp_moves hq rfl ho.symm
  · exact tryHostOp_moves hq rfl ho.symm

theorem deviceTurn_moves (s : State) (hq : s.out = quietOutputs) : Moves s (deviceTurn s) := by
  unfold deviceTurn
  split
  · exact moves_of_primitive .stay hq
  · next b rest _ =>
    split
    · exact moves_of_bookkeeping (u := { s with rxq := rest }) hq rfl
        (moves_of_primitive (.rxByte b) hq)
    · exact moves_of_primitive .stay hq

/-- `dropPending` changes the bookkeeping only. -/
theorem dropPending_eq (s : State) : s.dropPending = { s with host := s.dropPending.host } := by
  unfold State.dropPending
  split <;> rfl

theorem txErrTurn_moves (s : State) (hq : s.out = quietOutputs) : Moves s (txErrTurn s) := by
  unfold txErrTurn
  split
  · next code sub operand _ =>
    split
    · rw [dropPending_eq]
      exact moves_of_bookkeeping (u := { s with host := s.dropPending.host }) hq rfl
        (moves_of_primitive (.sendFailedShown _) hq)
    · exact moves_of_primitive .txErr hq
  · exact moves_of_primitive .txErr hq

theorem takeTurn_moves {t : Turn} {s u : State} (hq : s.out = quietOutputs)
    (h : takeTurn t s = .next u) : Moves s u := by
  cases t <;> simp only [takeTurn, Host.Outcome.next.injEq] at h
  case host => exact hostTurn_moves hq h
  case sequencer => subst h; exact moves_of_primitive .issue hq
  case arrive bytes =>
    subst h
    exact moves_of_bookkeeping (u := arriveTurn bytes s) hq rfl (moves_of_primitive .stay hq)
  case device => subst h; exact deviceTurn_moves s hq
  case rxErr => subst h; exact moves_of_primitive .rxErr hq
  case txErr => subst h; exact txErrTurn_moves s hq
  case rst => subst h; exact moves_of_primitive .reset hq
  case strobe => exact runHostOp_moves hq h
  case txErrPort =>
    subst h
    unfold txErrWith
    split
    · exact moves_of_primitive .sendFailed hq
    · exact moves_of_primitive .txErr hq
  case transfer p =>
    unfold transferTurn at h
    split at h
    · split at h
      · cases h; exact deviceTurn_moves s hq
      · cases h; exact moves_of_primitive .stay hq
    · split at h
      · cases h; exact moves_of_primitive .issue hq
      · cases h; exact moves_of_primitive .stay hq
    · split at h
      · exact sendCommand_moves hq h
      · cases h; exact moves_of_primitive .stay hq
    · cases h; exact moves_of_primitive .stay hq
    · cases h; exact moves_of_primitive .stay hq
  case clock p =>
    subst h
    refine moves_of_bookkeeping (u := { s with sched := clockTurns p ++ s.sched }) hq rfl ?_
    unfold showPorts
    split
    · exact moves_of_primitive (.showWord _) hq
    · exact moves_of_primitive .stay hq

/-- What a step can do: the one lemma from which invariants are derived. -/
theorem step_moves {s t : State} (h : step s = .next t) : Moves s t := by
  unfold step nextTurn at h
  split at h
  · cases h; exact ⟨s.sched, s.host, s.call, s.rxq, .stay⟩
  · next turn rest _ =>
    exact moves_of_rebook (s := s) (sched := rest) (host := s.host) (call := s.call) (rxq := s.rxq)
      (takeTurn_moves rfl h)

/-! ## Runs -/

/-- A run of one step more goes on from the next state (00_scope.md R15). -/
theorem run_succ_of_next {k : Nat} {s t : State} (h : step s = .next t) :
    core.run (k + 1) s = core.run k t := by
  have : core.step s = .next t := h
  simp only [Host.Core.run, this]

/-- A run of one step is that step. -/
theorem run_one (s : State) : core.run 1 s = step s := by
  have same : core.step s = step s := rfl
  simp only [Host.Core.run, same]
  cases step s <;> rfl

end Sys2Proof.Machine
end

