-- ==== Sys2Proof/Tests/Slice0.lean ====
section
/-! SUPPORT. Tests. Words and expected values are taken from the encodings of 30_encoding.md R71 and R83
and from the vectors of 95_test_vectors.md (E, B, K, M, A, X and section 2.7); none is the model's own
answer. At the end, for every statement with hypotheses, a state that meets them. -/

namespace Sys2Proof.Tests

open Sys2Proof Sys2Proof.Machine

/-! ## Small states -/

/-- The parameters of the tests: `PADDING_COUNT` `p`, `MAXIMUM_SAMPLES` 8, the defaults else. -/
def params (p : Nat) : Params where
  paddingCount := p
  maximumSamples := 8
  wireOrder := .le
  sampleOrder := .le
  layout := .interleaved
  valueInW := 64
  nW := 4
  posW := 8
  fnoW := 64
  trigger := ⟨0, 1, 0, 1, 0, 1⟩

/-- `IDLE`, configured to `n` samples, `PADDING_COUNT` `p`. -/
def idle (p n : Nat) : State := { State.resetWith (params p) with n := n, nValid := true }

/-- `CMD`, a bulk batch of `a` events pending. -/
def inCmd (p n : Nat) (a : Count) : State := { idle p n with st := .cmd, amount := a }

/-- `RX`, a bulk batch of `a` events, nothing received yet. -/
def inRx (p n : Nat) (a : Count) : State := { idle p n with st := .rx, amount := a }

/-- `WAIT`, a burst of `a` events. -/
def inWait (p n : Nat) (a : Count) : State := { idle p n with st := .wait, mode := .cont, amount := a }

/-- `HALT`. -/
def inHalt : State := { idle 1 1 with st := .halt, cause := .ioRx }

/-- The state with one turn to take. -/
def turning (t : Turn) (s : State) : State := { s with sched := [t] }

/-- The state with one turn of the host and one pending operation. -/
def hosting (op : HostOp) (s : State) : State := { s with sched := [.host], host := [op] }

/-- The state with one turn of the host and one part of a call in progress. -/
def calling (op : HostOp) (s : State) : State := { s with sched := [.host], call := [op] }

/-- What a step answers, if it is a next state. -/
def nextOf (o : Host.Outcome State Fault Refusal) : Option State :=
  match o with
  | .next s => some s
  | .fault _ => none
  | .refused _ => none

/-- The reject code after one host operation at its port. -/
def rejectOf (op : HostOp) (s : State) : Option RejCode :=
  (nextOf (step (turning (.strobe op) s))).map fun t => t.out.rejCode

/-- The words in `TX` after one turn. -/
def wordsOf (t : Turn) (s : State) : Option (List Word64) :=
  (nextOf (step (turning t s))).map fun u => u.tx

/-! ## WellFormed refuses an ill-formed term, check by check -/

theorem test_sumFits_refuses : { params 1 with maximumSamples := 2 ^ 52 - 1 }.sumFits = false := by decide
theorem test_nFits_refuses : { params 1 with nW := 3 }.nFits = false := by decide
theorem test_posFits_refuses : { params 1 with posW := 5 }.posFits = false := by decide
theorem test_valueFits_refuses : { params 1 with valueInW := 51 }.valueFits = false := by decide
theorem test_legal_params : (params 1).legal = true := by decide
theorem test_subZero_refuses : subZero 1 = false := by decide
theorem test_operandless_refuses_sub : operandless 1 0 = false := by decide
theorem test_operandless_refuses_value : operandless 0 1 = false := by decide
theorem test_negatorOk_refuses_channel : negatorOk 2 0 = false := by decide
theorem test_negatorOk_refuses_value : negatorOk 0 2 = false := by decide
theorem test_levelOk_refuses_above : levelOk 4096 = false := by decide
theorem test_levelOk_refuses_below : levelOk 0xFFFFFFFFFEFFF = false := by decide
theorem test_preTriggerOk_refuses_range : preTriggerOk (params 1) ⟨none, none⟩ 9 = false := by decide
theorem test_preTriggerOk_refuses_total : preTriggerOk (params 1) ⟨some 4, none⟩ 5 = false := by decide
theorem test_totalOk_refuses_range : totalOk (params 1) ⟨none, none⟩ 9 = false := by decide
theorem test_totalOk_refuses_pre : totalOk (params 1) ⟨none, some 4⟩ 3 = false := by decide
theorem test_totalValueOk_refuses : totalValueOk (params 2) ⟨none, none⟩ 1 = false := by decide
theorem test_sourceOk_refuses : sourceOk (params 1) 2 = false := by decide
theorem test_slopeOk_refuses : slopeOk (params 1) 2 = false := by decide
theorem test_modeOk_refuses : modeOk (params 1) 2 = false := by decide
theorem test_binOk_refuses : binOk 0x100000000000 = false := by decide
theorem test_wellBehaved_refuses : (Instr.startAcq 1 0).wellBehaved (params 1) ⟨none, none⟩ = false := by decide
theorem test_instantiate_refuses :
    instantiate { params 1 with valueInW := 51 } = .refused .illegalParameters := rfl

/-! ## Every command decodes from its word (30_encoding.md R71, R83) -/

theorem test_decode_rstHist : decodeTableWord 64 0x00A123456789ABCD = some (.rstHist 0xA 0x123456789ABCD) := by decide
theorem test_decode_rstTimer : decodeTableWord 64 0x01A123456789ABCD = some (.rstTimer 0xA 0x123456789ABCD) := by decide
theorem test_decode_rstOsc : decodeTableWord 64 0x02A123456789ABCD = some (.rstOsc 0xA 0x123456789ABCD) := by decide
theorem test_decode_rstGen : decodeTableWord 64 0x03A123456789ABCD = some (.rstGen 0xA 0x123456789ABCD) := by decide
theorem test_decode_setRate : decodeTableWord 64 0x04A123456789ABCD = some (.setRate 0xA 0x123456789ABCD) := by decide
theorem test_decode_setNeg : decodeTableWord 64 0x05A123456789ABCD = some (.setNeg 0xA 0x123456789ABCD) := by decide
theorem test_decode_setPhaDelay : decodeTableWord 64 0x06A123456789ABCD = some (.setPhaDelay 0xA 0x123456789ABCD) := by decide
theorem test_decode_setPhaMin : decodeTableWord 64 0x07A123456789ABCD = some (.setPhaMin 0xA 0x123456789ABCD) := by decide
theorem test_decode_setPhaMax : decodeTableWord 64 0x08A123456789ABCD = some (.setPhaMax 0xA 0x123456789ABCD) := by decide
theorem test_decode_setTimer : decodeTableWord 64 0x09A123456789ABCD = some (.setTimer 0xA 0x123456789ABCD) := by decide
theorem test_decode_setTimerMode : decodeTableWord 64 0x0AA123456789ABCD = some (.setTimerMode 0xA 0x123456789ABCD) := by decide
theorem test_decode_rdStatus : decodeTableWord 64 0x0BA123456789ABCD = some (.rdStatus 0xA 0x123456789ABCD) := by decide
theorem test_decode_rdHist : decodeTableWord 64 0x0CA123456789ABCD = some (.rdHist 0xA 0x123456789ABCD) := by decide
theorem test_decode_setTrgSrc : decodeTableWord 64 0x0DA123456789ABCD = some (.setTrgSrc 0xA 0x123456789ABCD) := by decide
theorem test_decode_setTrgSlope : decodeTableWord 64 0x0EA123456789ABCD = some (.setTrgSlope 0xA 0x123456789ABCD) := by decide
theorem test_decode_setTrgMode : decodeTableWord 64 0x0FA123456789ABCD = some (.setTrgMode 0xA 0x123456789ABCD) := by decide
theorem test_decode_setTrgLevel : decodeTableWord 64 0x10A123456789ABCD = some (.setTrgLevel 0xA 0x123456789ABCD) := by decide
theorem test_decode_setPre : decodeTableWord 64 0x11A123456789ABCD = some (.setPre 0xA 0x123456789ABCD) := by decide
theorem test_decode_setTot : decodeTableWord 64 0x12A123456789ABCD = some (.setTot 0xA 0x123456789ABCD) := by decide
theorem test_decode_startOsc : decodeTableWord 64 0x13A123456789ABCD = some (.startOsc 0xA 0x123456789ABCD) := by decide
theorem test_decode_rdOsc : decodeTableWord 64 0x14A123456789ABCD = some (.rdOsc 0xA 0x123456789ABCD) := by decide
theorem test_decode_setFall : decodeTableWord 64 0x15A123456789ABCD = some (.setFall 0xA 0x123456789ABCD) := by decide
theorem test_decode_setRise : decodeTableWord 64 0x16A123456789ABCD = some (.setRise 0xA 0x123456789ABCD) := by decide
theorem test_decode_setLower : decodeTableWord 64 0x17A123456789ABCD = some (.setLower 0xA 0x123456789ABCD) := by decide
theorem test_decode_setUpper : decodeTableWord 64 0x18A123456789ABCD = some (.setUpper 0xA 0x123456789ABCD) := by decide
theorem test_decode_setGenRate : decodeTableWord 64 0x19A123456789ABCD = some (.setGenRate 0xA 0x123456789ABCD) := by decide
theorem test_decode_setDist : decodeTableWord 64 0x1AA123456789ABCD = some (.setDist 0xA 0x123456789ABCD) := by decide
theorem test_decode_rstSpec : decodeTableWord 64 0x1BA123456789ABCD = some (.rstSpec 0xA 0x123456789ABCD) := by decide
theorem test_decode_setBin : decodeTableWord 64 0x1CA123456789ABCD = some (.setBin 0xA 0x123456789ABCD) := by decide
theorem test_decode_startGen : decodeTableWord 64 0x1DA123456789ABCD = some (.startGen 0xA 0x123456789ABCD) := by decide
theorem test_decode_stopGen : decodeTableWord 64 0x1EA123456789ABCD = some (.stopGen 0xA 0x123456789ABCD) := by decide
theorem test_decode_startAcq : decodeTableWord 64 0x1FA123456789ABCD = some (.startAcq 0xA 0x123456789ABCD) := by decide

/-! One word a family, bit by bit: code, sub-index, value. -/

theorem test_bits_rstSpec :
    decodeTableWord 64 0b0001101100000000000000000000000000000000000000000000000000000000 =
      some (.rstSpec 0 0) := by decide
theorem test_bits_setNeg :
    decodeTableWord 64 0b0000010100010000000000000000000000000000000000000000000000000001 =
      some (.setNeg 1 1) := by decide
theorem test_bits_rdStatus :
    decodeTableWord 64 0b0000101100000000000000000000000000000000000000000000000000000000 =
      some (.rdStatus 0 0) := by decide
theorem test_bits_setTrgLevel :
    decodeTableWord 64 0b0001000000001111111111111111111111111111111111111111111110011100 =
      some (.setTrgLevel 0 0xFFFFFFFFFFF9C) := by decide
theorem test_bits_setBin :
    decodeTableWord 64 0b0001110000000000000000000000000100010010001101000101011001111000 =
      some (.setBin 0 0x112345678) := by decide
theorem test_bits_startAcq :
    decodeTableWord 64 0b0001111100000000000000000000000000000000000000000000000000000101 =
      some (.startAcq 0 5) := by decide
theorem test_unassigned_word_refused : decodeTableWord 64 0x2000000000000000 = none := by decide
theorem test_short_bytes_refused : decodeBytes .le [0, 0, 0, 0, 0, 0, 0x1F] = .error .shortWord := rfl

/-! ## The codec (95_test_vectors.md 2.1 to 2.4) -/

theorem test_E6_negative_operand : cweEncode 16 0 (-100) = 0x100FFFFFFFFFFF9C := by decide
theorem test_E13_truncation : cweEncode 4 0 (2 ^ 52 + 5) = 0x0400000000000005 := by decide
theorem test_E20_unassigned_code_packed : cweEncode 255 15 (-1) = 0xFFFFFFFFFFFFFFFF := by decide
theorem test_E24_last_bin : cweEncode 28 0 (binOperand 4095 0xFFFFFFFF) = 0x1C000FFFFFFFFFFF := by decide
theorem test_E25_spilled_weight : cweEncode 28 0 (binOperand 0 (2 ^ 32)) = 0x1C00000100000000 := by decide
theorem test_B8_wire_le : serWord .le 0x1C00000112345678 = [0x78, 0x56, 0x34, 0x12, 1, 0, 0, 0x1C] := by decide
theorem test_B8_wire_be : serWord .be 0x1C00000112345678 = [0x1C, 0, 0, 1, 0x12, 0x34, 0x56, 0x78] := by decide
theorem test_orders_mixed : deserWord .be [5, 0, 0, 0, 0, 0, 0, 0x1F] = some (0x050000000000001F, []) := by decide
theorem test_K5_signed_view : signedValue 0x0408000000000000 = -2251799813685248 := by decide
theorem test_K6_unassigned : wordClass 0x2000000000000000 = .unassigned := by decide
theorem test_call_refuses_wide_code : cweEncodeCall 256 0 0 = none := by decide
theorem test_operand_of_setTot : cweEncode 18 0 (totalOperand (params 2) 4) = 0x1200000000000006 := by decide

/-! ## One command a family runs (95_test_vectors.md 2.4), and waits outside `IDLE` -/

theorem test_M2_setNeg : wordsOf (.strobe (.send 5 1 1)) (idle 1 1) = some [0x0510000000000001] := by decide
theorem test_M7_setTrgLevel :
    wordsOf (.strobe (.send 16 0 (-100))) (idle 1 1) = some [0x100FFFFFFFFFFF9C] := by decide
theorem test_M10_setFall : wordsOf (.strobe (.send 21 0 250)) (idle 1 1) = some [0x15000000000000FA] := by decide
theorem test_M14_startAcq : wordsOf (.strobe (.send 31 0 0)) (idle 1 1) = some [0x1F00000000000000] := by decide
theorem test_M15_unassigned : wordsOf (.strobe (.send 32 0 0)) (idle 1 1) = some [0x2000000000000000] := by decide
theorem test_rstSpec_word : wordsOf (.strobe (.send 27 0 0)) (idle 1 1) = some [0x1B00000000000000] := by decide
theorem test_rdOsc_word : wordsOf (.strobe (.send 20 0 0)) (idle 1 1) = some [0x1400000000000000] := by decide
theorem test_send_waits : (nextOf (step (hosting (.send 4 0 4) (inRx 1 1 1)))).map (fun t => (t.tx, t.host)) =
    some ([], [.send 4 0 4]) := by decide
theorem test_fetch_word_runs :
    step (State.reset.withFetchWord 64 0x0510000000000001) = exec (.setNeg 1 1) State.reset := rfl

/-! ## The parser's host operations (95_test_vectors.md 2.5) -/

theorem test_A1 : rejectOf (.startBulk 1) (State.resetWith (params 0)) = some .eUnconfigured := by decide
theorem test_A3 : rejectOf .pull (State.resetWith (params 0)) = some .eNotWaiting := by decide
theorem test_A4 : rejectOf (.cfg 9) (State.resetWith (params 0)) = some .eRange := by decide
theorem test_A5 : afpCfg 8 (State.resetWith (params 0)) = idle 0 8 := by decide
theorem test_A7 : rejectOf (.startBulk 1) (idle 0 0) = some .eEmptyFrame := by decide
theorem test_A8 : rejectOf (.startCont 0) (idle 0 0) = some .eEmptyFrame := by decide
theorem test_A9 : rejectOf (.startCont 0) (idle 0 1) = some .eZeroBurst := by decide
theorem test_A10 : afpStartBulk 1 (idle 0 1) = inCmd 0 1 1 := by decide
theorem test_A12 : rejectOf (.startBulk 1) (inCmd 0 1 1) = some .eBusy := by decide
theorem test_A14 : wordsOf .sequencer (inCmd 0 1 1) = some [0x1F00000000000001] := by decide
theorem test_A16 : afpStartCont 10 (idle 0 1) = inWait 0 1 10 := by decide
theorem test_A17 : (afpPull (inWait 0 1 10)).st = .cmd := by decide
theorem test_A18 : (afpPull { inWait 0 1 10 with evt := 3 }).st = .rx := by decide
theorem test_A19 : afpCancel { inWait 0 1 10 with evt := 5 } =
    { inWait 0 1 10 with evt := 5, st := .halt, cause := .closed } := by decide
theorem test_A20 : rejectOf .cancel inHalt = some .eHalted := by decide
theorem test_A21 : inHalt.resetBlock = State.resetWith (params 1) := by decide
theorem test_A22 : afpIssue (inCmd 2 0 0) =
    { idle 2 0 with
      batchOk := true, tx := [0x1F00000000000000]
      out := { quietOutputs with
        batchDone := true, word := some 0x1F00000000000000, txWord := some 0x1F00000000000000 } } := by decide
theorem test_A23 : receive (List.replicate 8 0x55) (inRx 2 0 1) =
    { idle 2 0 with
      amount := 1, evt := 1, fno := 1, frames := 1, batchOk := true
      out := { quietOutputs with batchDone := true, evtDone := true } } := by decide

/-! ## Receiving (95_test_vectors.md 2.6 to 2.8) -/

theorem test_places_interleaved : (List.range 8).map (fun k => loc .interleaved 4 (2 * k)) =
    [(0, 0), (1, 0), (0, 1), (1, 1), (0, 2), (1, 2), (0, 3), (1, 3)] := by decide
theorem test_places_planar : (List.range 8).map (fun k => loc .planar 4 (2 * k)) =
    [(0, 0), (0, 1), (0, 2), (0, 3), (1, 0), (1, 1), (1, 2), (1, 3)] := by decide
theorem test_sample_le : sampleValue (asmSample .le 0x9C 0xFF) = -100 := by decide
theorem test_sample_be : sampleValue (asmSample .be 0x9C 0xFF) = -25345 := by decide
theorem test_sample_stored : memReadCell
    (afpRxByte 0xFF { inRx 0 4 1 with pos := 7, hold := 0x9C }).mem 5 = some 0xFF9C := by decide
theorem test_frame_without_padding : (receive [0x34, 0x12, 0x78, 0x56] (inRx 0 1 1)).batchArray =
    some [[[some 0x1234], [some 0x5678]]] := by decide
theorem test_last_byte_closes : receive [0x34, 0x12, 0x78, 0x56] (inRx 0 1 1) =
    { idle 0 1 with
      amount := 1, evt := 1, fno := 1, frames := 1, hold := 0x78, batchOk := true
      mem := [(0, 0x34), (1, 0x12), (2, 0x78), (3, 0x56)]
      out := { quietOutputs with
        evtDone := true, batchDone := true, sample := some ⟨0, 1, 0, 0x5678⟩ } } := by decide
theorem test_X1 : afpRxErr { inRx 1 4 2 with pos := 13, evt := 1, fno := 1 } =
    { inRx 1 4 2 with pos := 13, evt := 1, fno := 1, st := .halt, cause := .ioRx } := by decide
theorem test_X3 : afpTxErr (inCmd 1 1 5) = { inCmd 1 1 5 with st := .halt, cause := .ioTx } := by decide
theorem test_X4 : (nextOf (step { hosting (.send 4 0 4) (idle 1 1) with sched := [.txErr] })).map
    (fun t => (t.st, t.cause, t.tx, t.out.callerError)) =
      some (.halt, .ioTx, [], some .connectionError) := by decide
theorem test_X5 : afpRxErr (inWait 1 1 1) = inWait 1 1 1 := by decide
theorem test_X6 : (afpTxErr (afpRxErr (afpCancel inHalt))).cause = .ioRx := by decide
theorem test_generic_spectrum : (nextOf (step (turning (.strobe .setSpectrumGeneric) (idle 1 1)))).map
    (fun t => t.out.callerError) = some (some .notImplemented) := by decide

theorem test_X7 : (nextOf (core.run 4
    (turning (.clock { rxValid := true, rxErr := true }) { inRx 1 1 1 with rxq := [7] }))).map
    (fun t => (t.st, t.cause, t.pos, t.rxq)) = some (.halt, .ioRx, 0, [7]) := by decide

/-! ## The session and the caller -/

theorem test_reset_loses_the_session :
    { inHalt with rxq := [1, 2], call := [.pull], tx := [5] }.resetBlock = State.resetWith (params 1) := by
  decide
theorem test_bytes_arrive_in_order : (nextOf (core.run 2
    { inRx 1 4 1 with rxq := [1], sched := [.arrive [2, 3], .device] })).map (fun t => (t.hold, t.rxq)) =
    some (1, [2, 3]) := by decide
theorem test_clock_takes_the_pending_byte : (nextOf (core.run 2
    (turning (.clock { rxValid := true }) { inRx 1 4 1 with rxq := [9, 8] }))).map
    (fun t => (t.hold, t.rxq)) = some (9, [8]) := by decide
theorem test_cycle_applies_inputs_in_order : (nextOf (core.run 4 (turning
    (.clock { inValid := true, txReady := true, cmdI := 4, valueI := 4, cfgWe := true, cfgN := 2, startWe := true })
    (idle 1 1)))).map (fun t => (t.tx, t.n, t.st)) = some ([0x0400000000000004], 2, .cmd) := by decide
theorem test_call_part_runs_as_at_its_port :
    nextOf (step (calling (.startCont 10) (idle 1 1))) = some (inWait 1 1 10) := by decide
theorem test_encoder_shows_outside_idle : (nextOf (step
    (turning (.clock { inValid := true, cmdI := 4, valueI := 2 ^ 52 + 5 }) (inRx 1 1 1)))).map
    (fun t => (t.outValid, t.out.word, t.tx)) = some (true, some 0x0400000000000005, []) := by decide
theorem test_level_checked_before_encoding :
    expandSetter (params 1) ⟨none, none⟩ (.setTrgLevel (2 ^ 52 - 100)) = .error .invalidArgument := rfl
theorem test_level_sent :
    expandSetter (params 1) ⟨none, none⟩ (.setTrgLevel (-100)) = .ok [.send 16 0 (-100)] := rfl
theorem test_slope_outside_refused :
    expandSetter (params 1) ⟨none, none⟩ (.setTrgSlope none) = .error .invalidArgument := rfl
theorem test_wide_weight_refused : weightOk (2 ^ 32) = false ∧ weightOk (-1) = false := by decide
theorem test_broken_stream_ends : (nextOf (step
    { inHalt with sched := [.host], call := [.pull, .awaitFrame], host := [.cancel] })).map
    (fun t => (t.call, t.host, t.out.callerError)) = some ([], [.cancel], some .connectionError) := by decide
theorem test_frame_covered_after_wrap :
    let s := receive [1, 0, 2, 0] { inRx 0 1 1 with mode := .cont, cfg := { params 0 with fnoW := 0 } }
    (s.fno, s.frames, s.sampleAt 0 1 0) = (0, 1, some 2) := by decide

/-! ## The hypotheses of every statement can be met -/

/-- One event of one sample has been received and the batch is complete. -/
def batchDone : State := receive [0x34, 0x12, 0x78, 0x56] (inRx 0 1 1)

/-- The last byte of the only frame of a batch is due. -/
def lastByte : State :=
  { inRx 0 1 1 with pos := 3, hold := 0x78, mem := [(0, 0x34), (1, 0x12)], sched := [.device], rxq := [0x56] }

/-- The last byte of a frame is due in continuous mode, one frame is handed over already. -/
def lastByteCont : State :=
  { inRx 0 1 2 with
    mode := .cont, evt := 1, fno := 1, frames := 1, pos := 3, hold := 0x78
    mem := [(0, 1), (1, 2), (2, 3), (3, 4), (4, 0x34), (5, 0x12)] }

theorem lastByte_inv : Inv lastByte := by constructor <;> decide

theorem batchDone_inv : Inv batchDone := by constructor <;> decide

theorem batchDone_covering : Covering batchDone := by
  refine ⟨fun h => absurd h (by decide), fun h => absurd h (by decide), fun _ f hf _ c i hc hi => ?_⟩
  have hf' : f < 1 := hf
  have hi' : i < 1 := hi
  interval_cases f
  interval_cases i
  interval_cases c <;> decide

theorem lastByte_covering : Covering lastByte := by
  refine ⟨fun _ f hf _ => absurd (show f < 0 from hf) (by omega), fun _ c i hc hi hp => ?_,
    fun h => absurd h (by decide)⟩
  have hi' : i < 1 := hi
  interval_cases i
  interval_cases c <;> revert hp <;> decide

theorem lastByteCont_inv : Inv lastByteCont := by constructor <;> decide

theorem lastByteCont_covering : Covering lastByteCont := by
  refine ⟨fun _ f hf _ c i hc hi => ?_, fun _ c i hc hi hp => ?_, fun h => absurd h (by decide)⟩
  · have hf' : f < 1 := hf
    have hi' : i < 1 := hi
    interval_cases f
    interval_cases i
    interval_cases c <;> decide
  · have hi' : i < 1 := hi
    interval_cases i
    interval_cases c <;> revert hp <;> decide

theorem witness_ValuePortAgreesWithTheInteger :
    52 ≤ 64 ∧ 52 ≤ 52 ∧ (5 + 2 ^ 52 : BitVec 64).setWidth 52 = (5 : BitVec 64).setWidth 52 := by decide

theorem witness_SignedReadingIsExactOnItsRange :
    (2 ^ 51 ≤ (2 ^ 51 : Int) ∧ (2 ^ 51 : Int) < 2 ^ 52) ∧ 2 ^ 51 ≤ (2 ^ 52 - 1 : Int) ∧ (2 ^ 52 - 1 : Int) < 2 ^ 52 := by decide

theorem witness_BytesOfAWordOnTheWire :
    0 < 8 ∧ 7 < 8 := by decide

theorem witness_DeserialisingInvertsSerialising :
    deserWord .le [1, 0, 0, 0, 0, 0, 0x10, 5, 9] = some (0x0510000000000001, [9]) ∧
    deserWord .be [5, 0x10, 0, 0, 0, 0, 0, 1] = some (0x0510000000000001, []) := by decide

theorem witness_CommandsRoundTripOnTheWire :
    decodeBytes .le [1, 0, 0, 0, 0, 0, 0x10, 5, 9] = .ok (.setNeg 1 1, [9]) ∧
    decodeBytes .be [0x1F, 0, 0, 0, 0, 0, 0, 5] = .ok (.startAcq 0 5, []) := ⟨rfl, rfl⟩

theorem witness_DecoderRefusesExactlyTheUnassigned :
    wordClass 0x2000000000000000 = .unassigned ∧ wordClass 0xFFFFFFFFFFFFFFFF = .unassigned := by decide

theorem witness_SpectrumBinOperandPacksIndexAndWeight :
    (0 < 4096 ∧ (0 : Int) ≤ 0 ∧ (0 : Int) < 2 ^ 32) ∧ 4095 < 4096 ∧ (0 : Int) ≤ 2 ^ 32 - 1 ∧ (2 ^ 32 - 1 : Int) < 2 ^ 32 := by decide

theorem witness_ResetReadAndStartCommandsSendTheirWords :
    State.reset.st = .idle ∧ (idle 1 4).st = .idle := ⟨rfl, rfl⟩

theorem witness_SettingCommandsSendTheirWords :
    State.reset.st = .idle ∧ (idle 1 4).st = .idle := ⟨rfl, rfl⟩

theorem witness_TriggerCommandsSendTheirWords :
    State.reset.st = .idle ∧ (idle 1 4).st = .idle := ⟨rfl, rfl⟩

theorem witness_GeneratorCommandsSendTheirWords :
    State.reset.st = .idle ∧ (idle 1 4).st = .idle := ⟨rfl, rfl⟩

theorem witness_CommandsChangeNothingButTheTransmitHistory :
    (∃ t, exec (.setRate 0 4) (idle 1 1) = .next t) ∧ ∃ t, exec (.setRate 0 4) (inRx 1 1 1) = .next t := ⟨⟨_, rfl⟩, ⟨_, rfl⟩⟩

theorem witness_CommandsWaitOutsideIdle :
    (∀ s ∈ [inCmd 1 1 1, inRx 1 1 1, inWait 1 1 1, inHalt], s.st ≠ .idle) ∧
    ((hosting (.send 4 0 4) inHalt).sched = [.host] ∧ (hosting (.send 4 0 4) inHalt).call = [] ∧
      (hosting (.send 4 0 4) inHalt).host = [.send 4 0 4] ∧ (hosting (.send 4 0 4) inHalt).st ≠ .idle) ∧
    (calling (.send 4 0 4) (inRx 1 1 1)).call = [.send 4 0 4] ∧ (calling (.send 4 0 4) (inRx 1 1 1)).st = .rx := by decide

theorem witness_StepRunsTheDecodedCommand :
    ((hosting (.send 5 1 1) (idle 1 1)).sched = [.host] ∧
      (hosting (.send 5 1 1) (idle 1 1)).host = [.send 5 1 1] ∧ (hosting (.send 5 1 1) (idle 1 1)).st = .idle ∧
      (hosting (.send 5 1 1) (idle 1 1)).call = [] ∧ decodeWord (cweEncode 5 1 1) = .ok (.setNeg 1 1)) ∧
    (calling (.send 5 1 1) (idle 1 1)).sched = [.host] ∧
      (calling (.send 5 1 1) (idle 1 1)).call = [.send 5 1 1] ∧ (calling (.send 5 1 1) (idle 1 1)).st = .idle ∧
    ((hosting .pull (inWait 1 1 2)).sched = [.host] ∧ (hosting .pull (inWait 1 1 2)).call = [] ∧
      (hosting .pull (inWait 1 1 2)).host = [.pull]) ∧
    ((calling (.startCont 10) (idle 1 1)).sched = [.host] ∧
      (calling (.startCont 10) (idle 1 1)).call = [.startCont 10] ∧ (calling (.startCont 10) (idle 1 1)).st ≠ .halt) ∧
    (∀ code sub operand, HostOp.pull ≠ .send code sub operand) ∧ HostOp.pull ≠ .awaitBatch ∧ HostOp.pull ≠ .awaitFrame := ⟨⟨rfl, rfl, rfl, rfl, rfl⟩, rfl, rfl, rfl, ⟨rfl, rfl, rfl⟩, ⟨rfl, rfl, by decide⟩, by rintro _ _ _ ⟨⟩, by decide, by decide⟩

theorem witness_UnassignedCodesAreSentUnchanged :
    ∀ code ∈ [(32 : Code), 255], (hosting (.send code 0 1) (idle 1 1)).sched = [.host] ∧
      (hosting (.send code 0 1) (idle 1 1)).host = [.send code 0 1] ∧
      (hosting (.send code 0 1) (idle 1 1)).call = [] ∧
      (hosting (.send code 0 1) (idle 1 1)).st = .idle ∧ 31 < code.toNat := by decide

theorem witness_FailedSendHaltsAndSendsNothing :
    ({ hosting (.send 4 0 4) (idle 1 1) with sched := [.txErr] }.st = .idle ∧
      { hosting (.send 4 0 4) (idle 1 1) with sched := [.txErr] }.call = [] ∧
      { hosting (.send 4 0 4) (idle 1 1) with sched := [.txErr] }.host = [.send 4 0 4]) ∧
    { calling (.send 4 0 4) (idle 1 1) with sched := [.txErr] }.call = [.send 4 0 4] ∧
    (turning .txErr (idle 1 1)).sched = [.txErr] ∧ (turning .txErr (idle 1 1)).st = .idle ∧
    (turning .txErr (idle 1 1)).nextOp = none ∧
    (hosting .pull (idle 1 1)).nextOp = some .pull := by decide

theorem witness_ConfigurationIsCheckedThenTakesEffect :
    inHalt.st = .halt ∧ (∀ s ∈ [inCmd 1 1 1, inRx 1 1 1, inWait 1 1 1], s.st ≠ .halt ∧ s.st ≠ .idle) ∧
    ((idle 1 1).st = .idle ∧ (idle 1 1).cfg.maximumSamples < 9) ∧ 8 ≤ (idle 1 1).cfg.maximumSamples ∧
    0 ≤ (idle 1 1).cfg.maximumSamples ∧ (turning (.strobe (.cfg 9)) (idle 1 1)).sched = [.strobe (.cfg 9)] := by decide

theorem witness_BulkStartIsCheckedThenOffersTheCommand :
    inHalt.st = .halt ∧ (∀ s ∈ [inCmd 1 1 1, inRx 1 1 1, inWait 1 1 1], s.st ≠ .halt ∧ s.st ≠ .idle) ∧
    ((State.resetWith (params 1)).st = .idle ∧ (State.resetWith (params 1)).nValid = false) ∧
    ((idle 0 0).st = .idle ∧ (idle 0 0).nValid = true ∧ (idle 0 0).n = 0 ∧ (idle 0 0).cfg.paddingCount = 0) ∧
    (∀ s ∈ [idle 0 1, idle 1 0, idle 1 8], s.st = .idle ∧ s.nValid = true ∧
      0 < 4 * s.n + 4 * s.cfg.paddingCount) ∧
    (turning (.strobe (.startBulk 0)) (idle 0 1)).sched = [.strobe (.startBulk 0)] := by decide

theorem witness_ContinuousStartIsCheckedThenWaits :
    inHalt.st = .halt ∧ (∀ s ∈ [inCmd 1 1 1, inRx 1 1 1, inWait 1 1 1], s.st ≠ .halt ∧ s.st ≠ .idle) ∧
    ((State.resetWith (params 1)).st = .idle ∧ (State.resetWith (params 1)).nValid = false) ∧
    ((idle 0 0).st = .idle ∧ (idle 0 0).nValid = true ∧ (idle 0 0).n = 0 ∧ (idle 0 0).cfg.paddingCount = 0) ∧
    (∀ s ∈ [idle 0 1, idle 1 0, idle 1 8], s.st = .idle ∧ s.nValid = true ∧
      0 < 4 * s.n + 4 * s.cfg.paddingCount) ∧
    ((0 : Count) = 0 ∧ (1 : Count) ≠ 0) ∧
    (turning (.strobe (.startCont 1)) (idle 0 1)).sched = [.strobe (.startCont 1)] := by decide

theorem witness_IssueSendsTheStartCommand :
    (turning .sequencer (inCmd 1 1 0)).sched = [.sequencer] ∧
    ((inCmd 1 1 0).st = .cmd ∧ (inCmd 1 1 0).mode = .bulk ∧ (inCmd 1 1 0).amount = 0) ∧
    ((inCmd 1 1 5).st = .cmd ∧ ¬((inCmd 1 1 5).mode = .bulk ∧ (inCmd 1 1 5).amount = 0)) ∧
    ({ inWait 1 1 5 with st := .cmd }.mode ≠ .bulk) ∧ (idle 1 1).st ≠ .cmd := by decide

theorem witness_PullAsksForACommandAtABurstBoundary :
    (turning (.strobe .pull) inHalt).sched = [.strobe .pull] ∧ inHalt.st = .halt ∧
    (∀ s ∈ [idle 1 1, inCmd 1 1 1, inRx 1 1 1], s.st ≠ .halt ∧ s.st ≠ .wait) ∧
    ((inWait 1 1 2).st = .wait ∧ (inWait 1 1 2).evt = 0) ∧
    { inWait 1 1 2 with evt := 1 }.st = .wait ∧ { inWait 1 1 2 with evt := 1 }.evt ≠ 0 := by decide

theorem witness_BytesAreTakenInReceiveOnly :
    (lastByte.sched = [.device] ∧ lastByte.rxq = [0x56] ∧ lastByte.st = .rx) ∧
    { lastByte with st := .halt }.st ≠ .rx := by decide

theorem witness_SampleBytesAreHeldThenStored :
    ((inRx 1 4 1).st = .rx ∧ (inRx 1 4 1).pos < (inRx 1 4 1).sbytes ∧ (inRx 1 4 1).pos % 2 = 0) ∧
    ({ inRx 1 4 1 with pos := 15 }.pos < (inRx 1 4 1).sbytes ∧ { inRx 1 4 1 with pos := 15 }.pos % 2 = 1 ∧
      loc .interleaved 4 15 = (1, 3)) ∧
    ((0x7FFF : Sample).toNat < 2 ^ 15 ∧ 2 ^ 15 ≤ (0x8000 : Sample).toNat) := by decide

theorem witness_PaddingBytesAreDropped :
    ∀ p ∈ [16, 18, 19], { inRx 1 4 1 with pos := p }.st = .rx ∧ (inRx 1 4 1).sbytes ≤ p ∧ p < (inRx 1 4 1).fbytes := by decide

theorem witness_PaddingBytesAreDropped_inside :
    18 + 1 < (inRx 1 4 1).fbytes := by decide

theorem witness_BulkFrameEnds :
    (lastByte.st = .rx ∧ lastByte.mode = .bulk ∧ lastByte.pos + 1 = lastByte.fbytes ∧
      lastByte.evt + 1 = lastByte.amount ∧ lastByte.amount ≠ 0 ∧ lastByte.fno = lastByte.evt.toNat ∧
      lastByte.amount.toNat < 2 ^ lastByte.cfg.fnoW) ∧
    { lastByte with amount := 2 }.evt + 1 ≠ (2 : Count) := by decide

theorem witness_ContinuousFrameEnds :
    (lastByteCont.st = .rx ∧ lastByteCont.mode = .cont ∧ lastByteCont.pos + 1 = lastByteCont.fbytes ∧
      lastByteCont.evt + 1 = lastByteCont.amount ∧ { lastByteCont with evt := 0 }.evt + 1 ≠ (2 : Count)) ∧
    Covering lastByteCont ∧ Inv lastByteCont := ⟨by decide, lastByteCont_covering, lastByteCont_inv⟩

theorem witness_ConnectionErrorsHaltWhereTheyAreNoticed :
    ((turning .rxErr (inRx 1 1 1)).sched = [.rxErr] ∧ (inRx 1 1 1).st = .rx ∧ (idle 1 1).st ≠ .rx) ∧
    (turning .txErr (inCmd 1 1 1)).sched = [.txErr] ∧ (inCmd 1 1 1).st = .cmd ∧
    ∀ s ∈ [inRx 1 1 1, inWait 1 1 1, inHalt], s.st ≠ .cmd ∧ s.st ≠ .idle := by decide

theorem witness_CancelClosesEverySessionButAHaltedOne :
    (turning (.strobe .cancel) inHalt).sched = [.strobe .cancel] ∧ inHalt.st = .halt ∧
    ∀ s ∈ [idle 1 1, inCmd 1 1 1, inRx 1 1 1, inWait 1 1 1], s.st ≠ .halt := by decide

theorem witness_ResetGivesEveryRegisterItsValue :
    (turning .rst inHalt).sched = [.rst] := by decide

theorem witness_RejectsChangeNothing :
    ∃ t, step (turning (.strobe .pull) (idle 1 1)) = .next t ∧ t.out.rejCode ≠ .eNone ∧
      (turning (.strobe .pull) (idle 1 1)).sched = [.strobe .pull] := ⟨_, rfl, by decide, rfl⟩

theorem witness_OnlyResetLeavesHalt :
    (turning .rst inHalt).st = .halt ∧ (∃ t, step (turning .rst inHalt) = .next t) ∧
      ∃ t, step (turning .device inHalt) = .next t := ⟨rfl, ⟨_, rfl⟩, ⟨_, rfl⟩⟩

theorem witness_ErrorsAndCancelWinInAClockCycle :
    (turning (.clock { rst := true }) inHalt).sched = [.clock { rst := true }] ∧
    (({ cancel := true, rxValid := true } : PortInputs).rst = false ∧
      ({ cancel := true, rxValid := true } : PortInputs).cancel = true) ∧
    (∀ s ∈ [idle 1 1, inCmd 1 1 1, inRx 1 1 1, inWait 1 1 1], s.st ≠ .halt) ∧
    (({ rxErr := true, rxValid := true } : PortInputs).rst = false ∧
      ({ rxErr := true, rxValid := true } : PortInputs).cancel = false ∧
      ({ rxErr := true, rxValid := true } : PortInputs).rxErr = true) ∧ (inRx 1 1 1).st = .rx ∧
    (({ txErr := true, inValid := true } : PortInputs).txErr = true ∧
      ({ txErr := true, inValid := true } : PortInputs).inValid = true) ∧
    (inCmd 1 1 1).st = .cmd ∧ (idle 1 1).st = .idle ∧
    (∀ p ∈ [({} : PortInputs), { rxValid := true }, { inValid := true, txReady := true, cfgWe := true, pull := true }],
      p.rst = false ∧ p.cancel = false ∧ p.rxErr = false ∧ p.txErr = false) ∧
    (lastByte.st = .rx ∧ lastByte.rxq = [0x56] ∧ (inWait 1 1 1).st = .wait ∧ (inRx 1 1 1).rxq = []) := by decide

theorem witness_StepsKeepTheInvariants :
    Inv lastByte ∧ ∃ t, step lastByte = .next t := ⟨lastByte_inv, _, rfl⟩

theorem witness_StepsKeepMemoryCanonical :
    Memory.wf lastByte.mem = true ∧ ∃ t, step lastByte = .next t := ⟨rfl, _, rfl⟩

theorem witness_StepsKeepCoveredCellsWritten :
    Inv lastByte ∧ Covering lastByte ∧ ∃ t, step lastByte = .next t := ⟨lastByte_inv, lastByte_covering, _, rfl⟩

theorem witness_CoveredCellsReadAsWritten :
    (Covering batchDone ∧ batchDone.covered 0 = true ∧ 1 < 2 ∧ 0 < batchDone.n) ∧
    Covering lastByteCont ∧ lastByteCont.covered 0 = true := ⟨⟨batchDone_covering, by decide, by decide, by decide⟩, lastByteCont_covering, by decide⟩

theorem witness_UncoveredReadsAnswerAFreeValue :
    ((idle 1 1).covered 0 = false ∧ batchDone.covered 1 = false ∧ 1 < 2 ∧ 0 < (idle 1 1).n) ∧
    ¬(2 < 2 ∧ 0 < (idle 1 1).n) ∧ ¬(1 < 2 ∧ 1 < (idle 1 1).n) := by decide

theorem witness_TransmitHistoryGrowsByWholeWords :
    (∃ t, step (turning .sequencer (inCmd 1 1 5)) = .next t) ∧
    ∃ t, step (turning .rst (idle 1 1)) = .next t := ⟨⟨_, rfl⟩, ⟨_, rfl⟩⟩

theorem witness_OutChangesByOneSampleOnly :
    ∃ t, step lastByte = .next t := ⟨_, rfl⟩

theorem witness_InboundBytesAreTakenInOrder :
    (∃ t, step lastByte = .next t) ∧ ∃ t, step (turning (.arrive [1]) inHalt) = .next t := ⟨⟨_, rfl⟩, ⟨_, rfl⟩⟩

theorem witness_LengthIsConstantDuringAnAcquisition :
    ∃ t, step lastByte = .next t ∧ lastByte.st = .rx := ⟨_, rfl, rfl⟩

theorem witness_BatchOkIsSetByCompletionOnly :
    (lastByte.batchOk = false ∧ ∃ t, step lastByte = .next t ∧ t.batchOk = true) ∧
    ∃ t, step (turning .sequencer (inCmd 1 1 0)) = .next t ∧ t.batchOk = true := ⟨⟨rfl, _, rfl, rfl⟩, _, rfl, rfl⟩

theorem witness_PlacesAndCellsNeverCollide :
    (1 < 2 ∧ 3 < 4) ∧ cellAddr 4 0 1 3 = cellAddr 4 0 1 3 := by decide

theorem witness_EveryFrameWritesEachCellOnce :
    (inRx 1 1 2).st = .rx ∧ (inRx 1 1 2).pos = 0 ∧ 0 < (inRx 1 1 2).fbytes ∧
    (List.replicate 8 (7 : Byte)).length = (inRx 1 1 2).fbytes ∧ 7 < (inRx 1 1 2).fbytes ∧ 1 < 2 ∧ 0 < (inRx 1 1 2).n := by decide

theorem witness_BulkBatchComputesTheArray :
    (idle 1 1).st = .idle ∧ (idle 1 1).nValid = true ∧ 0 < (idle 1 1).fbytes ∧ (2 : Count) ≠ 0 ∧
    (2 : Count).toNat < 2 ^ (idle 1 1).cfg.fnoW ∧
    (List.replicate 16 (7 : Byte)).length = (2 : Count).toNat * (idle 1 1).fbytes ∧ 1 < (2 : Count).toNat ∧ 0 < (idle 1 1).n := by decide

theorem witness_StartCommandsFollowTheReArmLaw :
    (idle 1 1).st = .idle ∧ (idle 1 1).nValid = true ∧ 0 < (idle 1 1).fbytes ∧ (10 : Count) ≠ 0 ∧
    ∀ f ∈ List.replicate 25 (List.replicate 8 (7 : Byte)), f.length = (idle 1 1).fbytes := by decide

theorem witness_ContinuousModeComputesEveryFrame :
    ((idle 1 1).st = .idle ∧ (idle 1 1).nValid = true ∧ 0 < (idle 1 1).fbytes ∧ (2 : Count) ≠ 0) ∧
    (∀ f ∈ List.replicate 3 (List.replicate 8 (7 : Byte)), f.length = (idle 1 1).fbytes) ∧
    3 ≤ 2 ^ (idle 1 1).cfg.fnoW ∧ 0 < (idle 1 1).n := by decide

theorem witness_SetTotalSamplesConfiguresThenSends :
    (turning (.strobe (.setTotalSamples ⟨none, some 4⟩ 3)) (idle 1 1)).sched =
      [.strobe (.setTotalSamples ⟨none, some 4⟩ 3)] ∧
    ((-1 : Int) < 0 ∧ ((idle 1 1).cfg.maximumSamples : Int) < 9 ∧
      (⟨none, some 4⟩ : CallerView).preTrigger = some 4 ∧ (3 : Int) < 4) ∧
    ((0 : Int) ≤ 8 ∧ (8 : Int) ≤ (idle 1 1).cfg.maximumSamples ∧
      ∀ pre, (⟨none, some 4⟩ : CallerView).preTrigger = some pre → pre ≤ 8) ∧
    (idle 1 1).cfg.legal = true := ⟨by decide, by decide, ⟨by decide, by decide, fun pre h => by cases h; decide⟩, by decide⟩

theorem witness_SetSpectrumSends4096BinsInOrder :
    (turning (.strobe (.setSpectrum [])) (idle 1 1)).sched = [.strobe (.setSpectrum [])] ∧
    (([] : List Int).length ≠ 4096 ∧ ∃ weight ∈ [(2 ^ 32 : Int)], weight < 0 ∨ 2 ^ 32 ≤ weight) ∧
    (List.replicate 4096 (7 : Int)).length = 4096 ∧
    ∀ weight ∈ List.replicate 4096 (7 : Int), 0 ≤ weight ∧ weight < 2 ^ 32 := ⟨rfl, by decide, List.length_replicate, fun w h => by rw [List.eq_of_mem_replicate h]; decide⟩

theorem witness_AcquisitionCallsStartThenWait :
    (turning (.strobe (.acquireBatch 5)) (idle 1 1)).sched = [.strobe (.acquireBatch 5)] ∧
    (turning (.strobe (.streamEvents 10 25)) (idle 1 1)).sched = [.strobe (.streamEvents 10 25)] ∧
    ((calling .awaitBatch inHalt).sched = [.host] ∧ (calling .awaitBatch inHalt).call = [.awaitBatch] ∧
      inHalt.st = .halt ∧ inHalt.batchOk = false) ∧
    ((calling .awaitFrame inHalt).call = [.awaitFrame] ∧ (inWait 1 1 1).st = .wait) ∧
    ((calling .pull inHalt).call = [.pull] ∧ HostOp.pull ≠ .awaitBatch ∧ HostOp.pull ≠ .awaitFrame) ∧
    (inCmd 1 1 1).st = .cmd ∧ batchDone.st = .idle ∧ batchDone.batchOk = true := by decide

theorem witness_SettersCheckThenSendOrFail :
    (turning (.strobe (.setter ⟨some 4, none⟩ (.setNeg 1 1))) (idle 1 1)).sched =
      [.strobe (.setter ⟨some 4, none⟩ (.setNeg 1 1))] ∧
    ((-4096 : Int) ≤ -4096 ∧ (4095 : Int) ≤ 4095 ∧ (4095 : Int) < 4096) ∧
    ((4 : Int) ≤ (idle 1 1).cfg.maximumSamples ∧
      (∀ total, (⟨some 4, none⟩ : CallerView).totalSamples = some total → 4 ≤ total) ∧
      (⟨some 4, none⟩ : CallerView).totalSamples = some 4 ∧ (4 : Int) < 5) ∧
    ¬((0 : Int) ≤ 2 ∧ (2 : Int) ≤ 1) ∧
    (-2 ^ 51 ≤ (-2 ^ 51 : Int) ∧ (2 ^ 52 - 1 : Int) < 2 ^ 52 ∧ (2 ^ 52 : Int) ≤ 2 ^ 52) ∧
    (turning (.strobe .setSpectrumGeneric) (idle 1 1)).sched = [.strobe .setSpectrumGeneric] := ⟨by decide, by decide, ⟨by decide, fun total h => by cases h; decide, rfl, by decide⟩, by decide, by decide, by decide⟩

theorem witness_EncoderShowsTheWordOfItsInputs :
    (turning (.strobe (.encode 4 0 5)) (inRx 1 1 1)).sched = [.strobe (.encode 4 0 5)] ∧
    (turning (.clock { inValid := true }) (inRx 1 1 1)).sched = [.clock { inValid := true }] ∧
    ({ inValid := true } : PortInputs).inValid = true := by decide

end Sys2Proof.Tests
end

section
/-! Where a step can stop (00_scope.md R15, notes/assumptions/25.md). A stop is traced from the consumer's
read, through the host operation and the host's turn that perform it, to the step. -/

namespace Sys2Proof.Machine

/-- The operation is a read of an index triple that an array of `n` samples a channel does not have. -/
def HostOp.ReadsOutside (op : HostOp) (n : Nat) : Prop :=
  ∃ f c i, op = .read f c i ∧ ¬(c < 2 ∧ i < n)

theorem hasCell_eq_false_iff (s : State) (c i : Nat) :
    s.hasCell c i = false ↔ ¬(c < 2 ∧ i < s.n) := by
  simp [State.hasCell]

theorem sendCommand_next (code : Code) (sub : SubIx) (operand : Int) (s : State) :
    ∃ t, sendCommand code sub operand s = .next t := by
  rw [sendCommand_eq_cweSend]
  exact cweSend_next code sub operand s

theorem transferTurn_next (p : PortInputs) (s : State) : ∃ t, transferTurn p s = .next t := by
  unfold transferTurn
  cases s.st
  case idle =>
    dsimp only
    split
    · exact sendCommand_next ..
    · exact ⟨_, rfl⟩
  case cmd | rx => dsimp only; split <;> exact ⟨_, rfl⟩
  case wait | halt => exact ⟨_, rfl⟩

/-- Of the host's operations, only the consumer's read has a path without a next state. -/
theorem runHostOp_next_or_fault (op : HostOp) (s : State) :
    (∃ t, runHostOp op s = .next t) ∨
    (runHostOp op s = .fault .noSuchCell ∧ op.ReadsOutside s.n) := by
  cases op
  case send code sub operand => exact .inl (sendCommand_next code sub operand s)
  case read f c i =>
    rcases consumerRead_cases f c i s with ⟨_, _, _, hr⟩ | ⟨_, _, hr⟩ | ⟨hcell, hr⟩
    · exact .inl ⟨_, hr⟩
    · exact .inl ⟨_, hr⟩
    · exact .inr ⟨hr, f, c, i, rfl, (hasCell_eq_false_iff s c i).mp hcell⟩
  all_goals exact .inl ⟨_, rfl⟩

theorem tryHostOp_next_or_fault (op : HostOp) (s taken : State) :
    (∃ t, tryHostOp op s taken = .next t) ∨
    (tryHostOp op s taken = .fault .noSuchCell ∧ op.ReadsOutside taken.n) := by
  rcases tryHostOp_cases (op := op) (s := s) (taken := taken) rfl with ⟨_, ho⟩ | ⟨_, ho⟩
  · exact .inl ⟨_, ho⟩
  · rw [ho]; exact runHostOp_next_or_fault op taken

/-- A call in progress goes on with a read outside `HALT` only (notes/assumptions/32.md). -/
theorem not_halt_of_read_not_callBroken {f c i : Nat} {s : State}
    (h : callBroken (.read f c i) s = false) : s.st ≠ .halt := by
  intro halted
  simp [callBroken, State.halted, halted] at h

/-- The host's turn stops on the read it performs: the next part of the call in progress, or, with no
call in progress, the first of the pending operations. -/
theorem hostTurn_next_or_fault (s : State) :
    (∃ t, hostTurn s = .next t) ∨
    (hostTurn s = .fault .noSuchCell ∧ ∃ f c i, ¬(c < 2 ∧ i < s.n) ∧
      ((∃ ops, s.call = [] ∧ s.host = .read f c i :: ops) ∨
        ∃ ops, s.st ≠ .halt ∧ s.call = .read f c i :: ops)) := by
  rcases hostTurn_cases (s := s) rfl with ⟨_, _, ho⟩ | ⟨_, _, _, _, ho⟩ |
    ⟨op, ops, hcall, hbroken, ho⟩ | ⟨op, ops, hcall, hhost, ho⟩
  · exact .inl ⟨_, ho⟩
  · exact .inl ⟨_, ho⟩
  · rw [ho]
    exact (tryHostOp_next_or_fault op s _).imp_right fun ⟨hfault, f, c, i, hread, houtside⟩ =>
      ⟨hfault, f, c, i, houtside,
        .inr ⟨ops, not_halt_of_read_not_callBroken (hread ▸ hbroken), hread ▸ hcall⟩⟩
  · rw [ho]
    exact (tryHostOp_next_or_fault op s _).imp_right fun ⟨hfault, f, c, i, hread, houtside⟩ =>
      ⟨hfault, f, c, i, houtside, .inl ⟨ops, hcall, hread ▸ hhost⟩⟩

/-- Of the turns, only the host's and an operation at its port can stop. -/
theorem takeTurn_next_or_fault (turn : Turn) (s : State) :
    (∃ t, takeTurn turn s = .next t) ∨
    (takeTurn turn s = .fault .noSuchCell ∧ ∃ f c i, ¬(c < 2 ∧ i < s.n) ∧
      (turn = .strobe (.read f c i) ∨
        (∃ ops, turn = .host ∧ s.call = [] ∧ s.host = .read f c i :: ops) ∨
        ∃ ops, turn = .host ∧ s.st ≠ .halt ∧ s.call = .read f c i :: ops)) := by
  cases turn
  case host =>
    refine (hostTurn_next_or_fault s).imp_right fun ⟨hfault, f, c, i, houtside, place⟩ =>
      ⟨hfault, f, c, i, houtside, .inr ?_⟩
    exact place.imp (fun ⟨ops, h⟩ => ⟨ops, rfl, h⟩) (fun ⟨ops, h⟩ => ⟨ops, rfl, h⟩)
  case strobe op =>
    exact (runHostOp_next_or_fault op s).imp_right fun ⟨hfault, f, c, i, hread, houtside⟩ =>
      ⟨hfault, f, c, i, houtside, .inl (congrArg Turn.strobe hread)⟩
  case transfer p => exact .inl (transferTurn_next p s)
  all_goals exact .inl ⟨_, rfl⟩

/-- A step takes the first turn of the list, from the state with its pulses low. -/
theorem step_of_sched_cons {s : State} {turn : Turn} {rest : List Turn}
    (h : s.sched = turn :: rest) : step s = takeTurn turn { s.quiet with sched := rest } := by
  simp only [step, nextTurn, h]

theorem step_of_sched_nil {s : State} (h : s.sched = []) : step s = .next s.quiet := by
  simp only [step, nextTurn, h]

/-- Settles O51: the stop of the turn at the head of the list, carried to the step that takes it. -/
theorem onlyAReadOutsideTheArrayStops : Obligations.OnlyAReadOutsideTheArrayStops := by
  intro s
  cases hsched : s.sched with
  | nil => exact .inl ⟨_, step_of_sched_nil hsched⟩
  | cons turn rest =>
    rw [step_of_sched_cons hsched]
    refine (takeTurn_next_or_fault turn _).imp_right
      fun ⟨hfault, f, c, i, houtside, place⟩ => ⟨hfault, f, c, i, houtside, ?_⟩
    rcases place with rfl | ⟨ops, rfl, hcall, hhost⟩ | ⟨ops, rfl, hst, hcall⟩
    · exact .inl ⟨rest, rfl⟩
    · exact .inr (.inl ⟨rest, ops, rfl, hcall, hhost⟩)
    · exact .inr (.inr ⟨rest, ops, rfl, hst, hcall⟩)

end Sys2Proof.Machine
end

section
/-! The invariants of 10_state.md R44. A state meets `Inv` by one rule for each value of `st`, which asks
for the facts of that value only; each primitive of `Primitive` keeps `Inv` by the rule of the state it
leads to, and `step_moves` carries this to a step. -/

namespace Sys2Proof.Machine

/-! ## What a state that meets the invariants has -/

theorem Inv.cause_eq_none {s : State} (h : Inv s) (notHalted : s.st ≠ .halt) : s.cause = .none :=
  Decidable.of_not_not fun stands => notHalted (h.cause.mp stands)

theorem Inv.batchOk_eq_false {s : State} (h : Inv s) (running : s.st = .cmd ∨ s.st = .rx ∨ s.st = .wait) :
    s.batchOk = false := by
  by_contra finished
  have resting := (h.batch (by simpa using finished)).1
  rcases running with st | st | st <;> simp [st] at resting

theorem Inv.mode_eq_bulk_of_idle {s : State} (h : Inv s) (st : s.st = .idle) : s.mode = .bulk := by
  cases mode : s.mode with
  | bulk => rfl
  | cont => exact absurd st (h.continuous mode)

/-- `Inv` reads neither the data registers and memories nor the model's own bookkeeping. -/
theorem Inv.of_unread {s : State} (h : Inv s) {hold : Byte} {tx : List Word64} {mem : Memory}
    {out : Outputs} {sched : List Turn} {host call : List HostOp} {rxq : List Byte} {freeCtr : Nat} :
    Inv { s with
      hold := hold, tx := tx, mem := mem, out := out, sched := sched, host := host, call := call
      rxq := rxq, freeCtr := freeCtr } :=
  ⟨h.legal, h.rx, h.waiting, h.command, h.cause, h.batch, h.counts, h.unconfigured, h.length, h.frames,
    h.position, h.continuous⟩

/-! ## One rule for each value of `st`

Its named cases are the clauses of `Inv` that speak of that value; the guard of every other clause is
false there. -/

section Rules

variable {t : State} (legal : t.cfg.legal = true) (length : t.n ≤ t.cfg.maximumSamples)
  (frames : t.fno = t.frames % 2 ^ t.cfg.fnoW)

include legal length frames

theorem inv_of_idle (st : t.st = .idle) (cause : t.cause = .none) (pos : t.pos = 0)
    (mode : t.mode = .bulk) : Inv t := by
  constructor <;> simp [*]

theorem inv_of_halt (st : t.st = .halt) (cause : t.cause ≠ .none)
    (batch : t.batchOk = true → t.mode = .bulk) : Inv t := by
  constructor
  case batch => exact fun finished => ⟨.inr st, batch finished⟩
  all_goals simp [*]

theorem inv_of_cmd (st : t.st = .cmd) (cause : t.cause = .none) (batch : t.batchOk = false)
    (valid : t.nValid = true) (nonempty : 0 < t.fbytes) (evt : t.evt = 0) (pos : t.pos = 0)
    (burst : t.mode = .cont → 0 < t.amount) (counts : t.mode = .bulk → t.frames = t.evt.toNat) :
    Inv t := by
  constructor
  case command => exact fun _ => ⟨valid, nonempty, evt, pos, burst⟩
  case counts => exact fun bulk _ => ⟨by rw [frames, counts bulk], counts bulk⟩
  all_goals simp [*]

theorem inv_of_rx (st : t.st = .rx) (cause : t.cause = .none) (batch : t.batchOk = false)
    (valid : t.nValid = true) (pos : t.pos < t.fbytes) (evt : t.evt < t.amount)
    (counts : t.mode = .bulk → t.frames = t.evt.toNat) : Inv t := by
  constructor
  case rx => exact fun _ => ⟨valid, Nat.zero_lt_of_lt pos, pos, evt⟩
  case counts => exact fun bulk _ => ⟨by rw [frames, counts bulk], counts bulk⟩
  all_goals simp [*]

theorem inv_of_wait (st : t.st = .wait) (cause : t.cause = .none) (batch : t.batchOk = false)
    (mode : t.mode = .cont) (valid : t.nValid = true) (nonempty : 0 < t.fbytes)
    (evt : t.evt < t.amount) (pos : t.pos = 0) : Inv t := by
  have amount : 0 < t.amount := by bv_omega
  constructor
  case waiting => exact fun _ => ⟨mode, valid, nonempty, amount, evt, pos⟩
  all_goals simp [*]

end Rules

/-! ## The operations keep the invariants -/

theorem count_pos_of_ne_zero {a : Count} (h : a ≠ 0) : 0 < a := by bv_omega

theorem Inv.reject {s : State} (h : Inv s) (r : RejCode) : Inv (s.reject r) := h.of_unread

theorem Inv.raiseHalt {s : State} (h : Inv s) {c : Cause} (cause : c ≠ .none) : Inv (s.raiseHalt c) :=
  inv_of_halt h.legal h.length h.frames rfl cause fun finished => (h.batch finished).2

theorem Inv.resetBlock {s : State} (h : Inv s) : Inv s.resetBlock :=
  inv_of_idle h.legal (Nat.zero_le _) (Nat.zero_mod _).symm rfl rfl rfl rfl

theorem Inv.cweSendFailed {s : State} (h : Inv s) : Inv (cweSendFailed s) := by
  rcases cweSendFailed_cases s with ⟨_, eq⟩ | ⟨_, eq⟩ <;> rw [eq]
  · exact (h.raiseHalt (c := .ioTx) (by decide)).of_unread
  · exact h

theorem Inv.afpCfg {s : State} (h : Inv s) (v : Nat) : Inv (afpCfg v s) := by
  rcases afpCfg_cases v s with ⟨st, inRange, eq⟩ | ⟨_, eq⟩ <;> rw [eq]
  · exact inv_of_idle h.legal inRange h.frames st (h.cause_eq_none (by simp [st])) (h.position st)
      (h.mode_eq_bulk_of_idle st)
  · exact h.reject _

theorem Inv.afpStartBulk {s : State} (h : Inv s) (a : Count) : Inv (afpStartBulk a s) := by
  rcases afpStartBulk_cases a s with ⟨st, valid, nonempty, eq⟩ | ⟨_, eq⟩ <;> rw [eq]
  · exact inv_of_cmd h.legal h.length (Nat.zero_mod _).symm rfl (h.cause_eq_none (by simp [st])) rfl
      valid nonempty rfl rfl nofun (fun _ => rfl)
  · exact h.reject _

theorem Inv.afpStartCont {s : State} (h : Inv s) (a : Count) : Inv (afpStartCont a s) := by
  rcases afpStartCont_cases a s with ⟨st, valid, nonempty, burst, eq⟩ | ⟨_, eq⟩ <;> rw [eq]
  · exact inv_of_wait h.legal h.length (Nat.zero_mod _).symm rfl (h.cause_eq_none (by simp [st])) rfl
      rfl valid nonempty (count_pos_of_ne_zero burst) rfl
  · exact h.reject _

/-- A pull goes from `WAIT` to `CMD` at a burst boundary and to `RX` inside a burst: I3 gives I4 or I2. -/
theorem Inv.afpPull {s : State} (h : Inv s) : Inv (afpPull s) := by
  rcases afpPull_cases s with ⟨st, evt, eq⟩ | ⟨st, _, eq⟩ | ⟨_, eq⟩ <;> rw [eq]
  · obtain ⟨mode, valid, nonempty, burst, _, pos⟩ := h.waiting st
    exact inv_of_cmd h.legal h.length h.frames rfl (h.cause_eq_none (by simp [st]))
      (h.batchOk_eq_false (by simp [st])) valid nonempty evt pos (fun _ => burst)
      (fun bulk => by simp [mode] at bulk)
  · obtain ⟨mode, valid, nonempty, _, inBurst, _⟩ := h.waiting st
    exact inv_of_rx h.legal h.length h.frames rfl (h.cause_eq_none (by simp [st]))
      (h.batchOk_eq_false (by simp [st])) valid nonempty inBurst (fun bulk => by simp [mode] at bulk)
  · exact h.reject _

/-- The start command leaves `CMD` for `RX` with an event left to receive, so an amount of 0 has to
complete the batch at once. -/
theorem Inv.afpIssue {s : State} (h : Inv s) : Inv (afpIssue s) := by
  rcases afpIssue_cases s with ⟨st, mode, _, eq⟩ | ⟨st, amount, eq⟩ | ⟨_, eq⟩ <;> rw [eq]
  · obtain ⟨_, _, _, pos, _⟩ := h.command st
    exact inv_of_idle h.legal h.length h.frames rfl (h.cause_eq_none (by simp [st])) pos mode
  · obtain ⟨valid, nonempty, evt, _, burst⟩ := h.command st
    have left : 0 < s.amount := amount.elim burst count_pos_of_ne_zero
    exact inv_of_rx h.legal h.length h.frames rfl (h.cause_eq_none (by simp [st]))
      (h.batchOk_eq_false (by simp [st])) valid nonempty (evt ▸ left)
      (fun bulk => (h.counts bulk (.inl st)).2)
  · exact h

theorem Inv.afpRxErr {s : State} (h : Inv s) : Inv (afpRxErr s) := by
  rcases afpRxErr_cases s with ⟨_, eq⟩ | ⟨_, eq⟩ <;> rw [eq]
  · exact h.raiseHalt (by decide)
  · exact h

theorem Inv.afpTxErr {s : State} (h : Inv s) : Inv (afpTxErr s) := by
  rcases afpTxErr_cases s with ⟨_, eq⟩ | ⟨_, eq⟩ <;> rw [eq]
  · exact h.raiseHalt (by decide)
  · exact h

theorem Inv.afpCancel {s : State} (h : Inv s) : Inv (afpCancel s) := by
  rcases afpCancel_cases s with ⟨_, eq⟩ | ⟨_, eq⟩ <;> rw [eq]
  · exact h.raiseHalt (by decide)
  · exact h.reject _

/-! ## A received byte keeps the invariants -/

theorem Inv.disposeByte {s : State} (h : Inv s) (b : Byte) : Inv (s.disposeByte b) := by
  rw [disposeByte_frame]
  exact h.of_unread

@[simp] theorem disposeByte_st (s : State) (b : Byte) : (s.disposeByte b).st = s.st := by
  rw [disposeByte_frame]

/-- The frame counter of R46 stays the number of completed frames, in `FNO_W` bits. -/
theorem fno_frameTick_of_fno {s : State} (frames : s.fno = s.frames % 2 ^ s.cfg.fnoW) :
    s.frameTick.fno = s.frameTick.frames % 2 ^ s.frameTick.cfg.fnoW := by
  simp [frames, Nat.add_mod]

/-- An event count below the amount is counted up without a carry out of its 52 bits. -/
theorem toNat_evt_succ {evt amount : Count} (h : evt < amount) : (evt + 1).toNat = evt.toNat + 1 := by
  bv_omega

/-- Steps 2 and 3 of a received byte: inside the frame only `pos` moves on; at its end the event count
moves on below `amount`, or the batch or the burst is complete. -/
theorem Inv.advance {s : State} (h : Inv s) (st : s.st = .rx) : Inv s.advance := by
  obtain ⟨valid, nonempty, _, evt⟩ := h.rx st
  have cause := h.cause_eq_none (by simp [st])
  have batch := h.batchOk_eq_false (by simp [st])
  have ticked := fno_frameTick_of_fno h.frames
  rcases advance_cases s with ⟨inside, eq⟩ | ⟨_, mode, _, eq⟩ | ⟨_, mode, more, eq⟩ | ⟨_, mode, eq⟩ <;>
    rw [eq]
  · exact inv_of_rx h.legal h.length h.frames st cause batch valid inside evt
      (fun bulk => (h.counts bulk (.inr st)).2)
  · exact inv_of_idle h.legal h.length ticked rfl cause rfl mode
  · have counts : s.frames + 1 = (s.evt + 1).toNat := by
      rw [toNat_evt_succ evt, (h.counts mode (.inr st)).2]
    have below : s.evt + 1 < s.amount := by bv_omega
    exact inv_of_rx h.legal h.length ticked st cause batch valid nonempty below (fun _ => counts)
  · have below : (if s.evt + 1 = s.amount then 0 else s.evt + 1) < s.amount := by
      split <;> bv_omega
    exact inv_of_wait h.legal h.length ticked rfl cause batch mode valid nonempty below rfl

theorem Inv.afpRxByte {s : State} (h : Inv s) (b : Byte) : Inv (afpRxByte b s) := by
  by_cases st : s.st = .rx
  · rw [afpRxByte_rx b s st]
    exact (h.disposeByte b).advance (by simpa using st)
  · rw [afpRxByte_other b s st]
    exact h

/-! ## Every step keeps the invariants -/

theorem Primitive.keeps_inv {u t : State} (p : Primitive u t) (h : Inv u) : Inv t := by
  cases p with
  | stay => exact h
  | tellCaller e => exact h.of_unread
  | showWord w => exact h.of_unread
  | send w _ => exact h.of_unread
  | sendFailed => exact h.cweSendFailed
  | sendFailedShown w => exact Inv.cweSendFailed h.of_unread
  | cfg v => exact h.afpCfg v
  | startBulk a => exact h.afpStartBulk a
  | startCont a => exact h.afpStartCont a
  | pull => exact h.afpPull
  | issue => exact h.afpIssue
  | rxByte b => exact h.afpRxByte b
  | rxErr => exact h.afpRxErr
  | txErr => exact h.afpTxErr
  | cancel => exact h.afpCancel
  | readCovered v => exact h.of_unread
  | readFree => exact h.of_unread
  | reset => exact h.resetBlock

/-- Settles O41: the primitive the step performs keeps `Inv`, which does not read the bookkeeping the
step changes before it. -/
theorem stepsKeepTheInvariants : Obligations.StepsKeepTheInvariants := by
  intro s t h hstep
  obtain ⟨sched, host, call, rxq, p⟩ := step_moves hstep
  exact p.keeps_inv h.of_unread

end Sys2Proof.Machine
end

section
/-! How `batch_ok` rises (10_state.md R32): of the primitives of a step, only `AFP.ISSUE` and the last byte
of a batch can set it. -/

namespace Sys2Proof.Machine

/-- The step from `s` to `t` completes a bulk batch: at once for an amount of 0, or with the last byte of
the last event (42_frame_parser.md R176, R185). -/
def CompletesBatch (s t : State) : Prop :=
  t.out.batchDone = true ∧ t.st = .idle ∧ s.mode = .bulk ∧
    ((s.st = .cmd ∧ s.amount = 0) ∨
      (s.st = .rx ∧ s.fbytes ≤ s.pos + 1 ∧ s.evt + 1 = s.amount ∧ t.evt = s.amount))

theorem completesBatch_of_afpIssue {s : State} (low : s.batchOk = false)
    (high : (afpIssue s).batchOk = true) : CompletesBatch s (afpIssue s) := by
  rcases afpIssue_cases s with ⟨st, mode, amount, eq⟩ | ⟨_, _, eq⟩ | ⟨_, eq⟩ <;> rw [eq] at high ⊢
  · exact ⟨rfl, rfl, mode, .inl ⟨st, amount⟩⟩
  · simp [low] at high
  · simp [low] at high

theorem completesBatch_of_advance {s : State} (st : s.st = .rx) (low : s.batchOk = false)
    (high : s.advance.batchOk = true) : CompletesBatch s s.advance := by
  rcases advance_cases s with ⟨_, eq⟩ | ⟨last, mode, evt, eq⟩ | ⟨_, _, _, eq⟩ | ⟨_, _, eq⟩ <;>
    rw [eq] at high ⊢
  · simp [low] at high
  · exact ⟨rfl, rfl, mode, .inr ⟨st, last, evt, evt⟩⟩
  · simp [low] at high
  · simp [State.closeContFrame, low] at high

theorem completesBatch_of_afpRxByte {s : State} (b : Byte) (low : s.batchOk = false)
    (high : (afpRxByte b s).batchOk = true) : CompletesBatch s (afpRxByte b s) := by
  by_cases st : s.st = .rx
  · rw [afpRxByte_rx b s st, disposeByte_frame] at high ⊢
    exact completesBatch_of_advance (s := { s with hold := _, mem := _, out := _ }) st low high
  · rw [afpRxByte_other b s st] at high
    simp [low] at high

/-! ## The operations that leave a low `batch_ok` low -/

theorem batchOk_cweSendFailed (s : State) : (cweSendFailed s).batchOk = s.batchOk := by
  rcases cweSendFailed_cases s with ⟨_, eq⟩ | ⟨_, eq⟩ <;> simp [eq]

theorem batchOk_afpCfg_of_false (v : Nat) {s : State} (low : s.batchOk = false) :
    (afpCfg v s).batchOk = false := by
  rcases afpCfg_cases v s with ⟨_, _, eq⟩ | ⟨_, eq⟩ <;> simp [eq, low]

theorem batchOk_afpStartBulk_of_false (a : Count) {s : State} (low : s.batchOk = false) :
    (afpStartBulk a s).batchOk = false := by
  rcases afpStartBulk_cases a s with ⟨_, _, _, eq⟩ | ⟨_, eq⟩ <;> simp [eq, low]

theorem batchOk_afpStartCont_of_false (a : Count) {s : State} (low : s.batchOk = false) :
    (afpStartCont a s).batchOk = false := by
  rcases afpStartCont_cases a s with ⟨_, _, _, _, eq⟩ | ⟨_, eq⟩ <;> simp [eq, low]

theorem batchOk_afpPull (s : State) : (afpPull s).batchOk = s.batchOk := by
  rcases afpPull_cases s with ⟨_, _, eq⟩ | ⟨_, _, eq⟩ | ⟨_, eq⟩ <;> simp [eq]

theorem batchOk_afpRxErr (s : State) : (afpRxErr s).batchOk = s.batchOk := by
  rcases afpRxErr_cases s with ⟨_, eq⟩ | ⟨_, eq⟩ <;> simp [eq]

theorem batchOk_afpTxErr (s : State) : (afpTxErr s).batchOk = s.batchOk := by
  rcases afpTxErr_cases s with ⟨_, eq⟩ | ⟨_, eq⟩ <;> simp [eq]

theorem batchOk_afpCancel (s : State) : (afpCancel s).batchOk = s.batchOk := by
  rcases afpCancel_cases s with ⟨_, eq⟩ | ⟨_, eq⟩ <;> simp [eq]

theorem Primitive.completesBatch {u t : State} (p : Primitive u t) (low : u.batchOk = false)
    (high : t.batchOk = true) : CompletesBatch u t := by
  cases p with
  | issue => exact completesBatch_of_afpIssue low high
  | rxByte b => exact completesBatch_of_afpRxByte b low high
  | stay | tellCaller | showWord | send | readCovered | readFree => simp [low] at high
  | sendFailed | sendFailedShown => simp [batchOk_cweSendFailed, low] at high
  | cfg v => simp [batchOk_afpCfg_of_false v low] at high
  | startBulk a => simp [batchOk_afpStartBulk_of_false a low] at high
  | startCont a => simp [batchOk_afpStartCont_of_false a low] at high
  | pull => simp [batchOk_afpPull, low] at high
  | rxErr => simp [batchOk_afpRxErr, low] at high
  | txErr => simp [batchOk_afpTxErr, low] at high
  | cancel => simp [batchOk_afpCancel, low] at high
  | reset => simp at high

/-- Settles O50: the primitive the step performs starts from the registers of `s`. -/
theorem batchOkIsSetByCompletionOnly : Obligations.BatchOkIsSetByCompletionOnly := by
  intro s t low hstep high
  obtain ⟨sched, host, call, rxq, p⟩ := step_moves hstep
  exact p.completesBatch low high

end Sys2Proof.Machine
end

section
/-! The level outputs as functions of the state (10_state.md R34). -/

namespace Sys2Proof.Machine

theorem busy_iff (s : State) : s.busy = true ↔ s.st = .cmd ∨ s.st = .rx ∨ s.st = .wait := by
  simp [State.busy, or_assoc]

theorem halted_iff (s : State) : s.halted = true ↔ s.st = .halt := by simp [State.halted]

theorem rxReady_iff (s : State) : s.rxReady = true ↔ s.st = .rx := by simp [State.rxReady]

theorem cmdValid_iff (s : State) : s.cmdValid = true ↔ s.st = .cmd := by simp [State.cmdValid]

theorem hostCmdReady_iff (s : State) : s.hostCmdReady = true ↔ s.st = .idle := by
  simp [State.hostCmdReady]

theorem waiting_iff (s : State) : s.waiting = true ↔ s.st = .wait := by simp [State.waiting]

/-- `E_NONE` is the one reject code with the number 0 (60_exceptions.md R222). -/
theorem rejectNumber_eq_zero_iff (r : RejCode) : rejectNumber r = 0 ↔ r = .eNone := by
  cases r <;> decide

theorem rej_iff (s : State) : s.rej = true ↔ s.rejCodeO ≠ 0 := by
  simp only [State.rej, State.rejCodeO, bne_iff_ne, ne_eq, rejectNumber_eq_zero_iff]

/-- Settles O35: every level output is decided by `st`, which a halt sets to `HALT`; the codes are read
off their tables. -/
theorem outputsFollowTheState : Obligations.OutputsFollowTheState := by
  refine ⟨fun s => ?levels, fun s c => ?halted, rfl, rfl, rfl, rfl⟩
  case levels =>
    exact ⟨busy_iff s, halted_iff s, rxReady_iff s, cmdValid_iff s, hostCmdReady_iff s, waiting_iff s,
      rfl, rej_iff s⟩
  case halted => exact ⟨rfl, rfl, rfl, rfl, rfl, rfl, rfl, rfl, rfl⟩

end Sys2Proof.Machine
end

section
/-! `RESET` and the state right after it (10_state.md R45), with the parameters of that state legal
whatever numbers the spec leaves open (00_scope.md R8, R9). -/

namespace Sys2Proof.Machine

/-- Settles O36: the turn `rst` is `resetBlock`, which writes every register. -/
theorem resetGivesEveryRegisterItsValue : Obligations.ResetGivesEveryRegisterItsValue := by
  refine ⟨fun s rest hsched => ?turn, rfl, rfl, rfl, rfl, rfl, rfl, rfl, rfl, rfl, rfl, rfl, rfl, rfl⟩
  case turn =>
    rw [step_of_sched_cons hsched]
    rfl

/-- The default width of a register holds the number it is meant for (00_scope.md R8). -/
theorem lt_two_pow_widthFor (m : Nat) : m < 2 ^ Config.widthFor m := by
  unfold Config.widthFor
  split
  next zero => simp [zero]
  next => exact Nat.lt_log2_self

/-- Two open numbers whose sum meets R9 make a legal record with the defaults of R8. -/
theorem legal_withDefaults {padding maximum : Nat} (h : maximum + padding < 2 ^ 52) :
    (Config.withDefaults padding maximum).legal = true := by
  have sum : (Config.withDefaults padding maximum).sumFits = true := decide_eq_true h
  have n : (Config.withDefaults padding maximum).nFits = true :=
    decide_eq_true (lt_two_pow_widthFor maximum)
  have pos : (Config.withDefaults padding maximum).posFits = true :=
    decide_eq_true (Nat.le_of_pred_lt (lt_two_pow_widthFor _))
  have value : (Config.withDefaults padding maximum).valueFits = true := rfl
  simp [Params.legal, sum, n, pos, value]

/-- The open numbers are brought into the range of R9 (91_not_in_source.md N4, N5). -/
theorem legal_params : Config.params.legal = true := by
  apply legal_withDefaults
  have padding : Config.paddingCount < 2 ^ 52 := Nat.mod_lt _ (by decide)
  have maximum : Config.maximumSamples < 2 ^ 52 - Config.paddingCount := Nat.mod_lt _ (by omega)
  omega

theorem inv_reset : Inv State.reset :=
  inv_of_idle legal_params (Nat.zero_le _) (Nat.zero_mod _).symm rfl rfl rfl rfl

/-- No frame is completed, being received or part of a finished batch. -/
theorem covering_reset : Covering State.reset where
  past _ f completed := absurd completed (Nat.not_lt_zero f)
  current := nofun
  finished := nofun

theorem covered_reset (f : Nat) : State.reset.covered f = false := by
  simp [State.covered, State.handedOver, State.reset, State.resetWith]

/-- Settles O40. -/
theorem resetStateMeetsTheInvariants : Obligations.ResetStateMeetsTheInvariants :=
  ⟨inv_reset, covering_reset, reset_mem_wf, covered_reset⟩

end Sys2Proof.Machine
end

section
/-! Covered cells are written (20_memory.md R67, 10_state.md R32). A write of a cell leaves every written
cell written, so coverage can be lost only where the frames or samples it speaks of grow: with a received
byte. `Covering` speaks of the frames of a start that have ended (`CompletedWritten`) and of the samples
of the running frame (`ReceivedWritten`); a byte extends the second by one position and, at the end of a
frame, turns it into the first. -/

namespace Sys2Proof.Machine

/-! ## What `Covering` speaks of -/

/-- Every frame completed since the last start has all its cells written. -/
def State.CompletedWritten (s : State) : Prop :=
  ∀ f, f < s.frames → f < 2 ^ s.cfg.fnoW → s.frameWritten f

/-- Every sample of the running frame whose second byte lies before offset `k` is written. -/
def State.ReceivedWritten (s : State) (k : Nat) : Prop :=
  ∀ c i, c < 2 → i < s.n → off s.cfg.layout s.n c i + 1 < k →
    (memReadCell s.mem (cellAddr s.n s.fno c i)).isSome = true

/-- `Covering` reads neither the data registers and outputs nor the model's own bookkeeping. -/
theorem Covering.of_unread {s : State} (h : Covering s) {hold : Byte} {tx : List Word64} {out : Outputs}
    {sched : List Turn} {host call : List HostOp} {rxq : List Byte} {freeCtr : Nat} :
    Covering { s with
      hold := hold, tx := tx, out := out, sched := sched, host := host, call := call, rxq := rxq
      freeCtr := freeCtr } :=
  ⟨h.past, h.current, h.finished⟩

/-! ## One rule for each kind of state -/

theorem covering_of_idle {t : State} (st : t.st = .idle) (mode : t.mode = .bulk)
    (finished : t.batchOk = true → ∀ f, f < t.amount.toNat → f < 2 ^ t.cfg.fnoW → t.frameWritten f) :
    Covering t where
  past running := by simp [st, mode] at running
  current rx := by simp [st] at rx
  finished := finished

theorem covering_of_rx {t : State} (batch : t.batchOk = false) (completed : t.CompletedWritten)
    (received : t.ReceivedWritten t.pos) : Covering t where
  past _ := completed
  current _ := received
  finished high := by simp [batch] at high

theorem covering_of_not_rx {t : State} (st : t.st ≠ .rx) (batch : t.batchOk = false)
    (completed : t.CompletedWritten) : Covering t where
  past _ := completed
  current rx := absurd rx st
  finished high := by simp [batch] at high

theorem Covering.completed {s : State} (h : Covering s)
    (running : s.st = .cmd ∨ s.st = .rx ∨ s.st = .wait) : s.CompletedWritten := by
  refine h.past ?_
  rcases running with st | st | st <;> simp [st]

/-- At a frame's first byte no sample of it lies before `pos`. -/
theorem receivedWritten_zero (s : State) : s.ReceivedWritten 0 :=
  fun _ _ _ _ before => absurd before (Nat.not_lt_zero _)

/-- Right after an accepted start no frame is completed. -/
theorem completedWritten_of_frames_eq_zero {s : State} (h : s.frames = 0) : s.CompletedWritten :=
  fun f completed => absurd completed (by omega)

/-! ## The operations that write no cell -/

theorem Covering.reject {s : State} (h : Covering s) (r : RejCode) : Covering (s.reject r) := h.of_unread

/-- In `HALT` the frames of continuous mode and of a finished batch stay covered
(notes/assumptions/13.md). -/
theorem Covering.raiseHalt {s : State} (h : Covering s) (c : Cause) : Covering (s.raiseHalt c) where
  past running := by
    have cont : s.mode = .cont := by simpa using running
    exact h.past (.inr (.inr (.inr cont)))
  current := nofun
  finished := h.finished

theorem covering_resetBlock (s : State) : Covering s.resetBlock :=
  covering_of_idle rfl rfl nofun

theorem Covering.cweSendFailed {s : State} (h : Covering s) : Covering (cweSendFailed s) := by
  rcases cweSendFailed_cases s with ⟨_, eq⟩ | ⟨_, eq⟩ <;> rw [eq]
  · exact (h.raiseHalt .ioTx).of_unread
  · exact h

/-- A new length is accepted in `IDLE` only, where no frame of continuous mode stands, and it gives up
the finished batch (42_frame_parser.md R173). -/
theorem Covering.afpCfg {s : State} (h : Covering s) (inv : Inv s) (v : Nat) : Covering (afpCfg v s) := by
  rcases afpCfg_cases v s with ⟨st, _, eq⟩ | ⟨_, eq⟩ <;> rw [eq]
  · exact covering_of_idle st (inv.mode_eq_bulk_of_idle st) nofun
  · exact h.reject _

theorem Covering.afpStartBulk {s : State} (h : Covering s) (a : Count) : Covering (afpStartBulk a s) := by
  rcases afpStartBulk_cases a s with ⟨_, _, _, eq⟩ | ⟨_, eq⟩ <;> rw [eq]
  · exact covering_of_not_rx nofun rfl (completedWritten_of_frames_eq_zero rfl)
  · exact h.reject _

theorem Covering.afpStartCont {s : State} (h : Covering s) (a : Count) : Covering (afpStartCont a s) := by
  rcases afpStartCont_cases a s with ⟨_, _, _, _, eq⟩ | ⟨_, eq⟩ <;> rw [eq]
  · exact covering_of_not_rx nofun rfl (completedWritten_of_frames_eq_zero rfl)
  · exact h.reject _

theorem Covering.afpPull {s : State} (h : Covering s) (inv : Inv s) : Covering (afpPull s) := by
  rcases afpPull_cases s with ⟨st, _, eq⟩ | ⟨st, _, eq⟩ | ⟨_, eq⟩ <;> rw [eq]
  · exact covering_of_not_rx nofun (inv.batchOk_eq_false (by simp [st])) (h.completed (by simp [st]))
  · exact covering_of_rx (inv.batchOk_eq_false (by simp [st])) (h.completed (by simp [st]))
      (receivedWritten_zero _)
  · exact h.reject _

/-- The start command completes a batch at once only for an amount of 0, which has no frame. -/
theorem Covering.afpIssue {s : State} (h : Covering s) (inv : Inv s) : Covering (afpIssue s) := by
  rcases afpIssue_cases s with ⟨_, mode, amount, eq⟩ | ⟨st, _, eq⟩ | ⟨_, eq⟩ <;> rw [eq]
  · exact covering_of_idle rfl mode fun _ f inBatch => by simp [amount] at inBatch
  · exact covering_of_rx (inv.batchOk_eq_false (by simp [st])) (h.completed (by simp [st]))
      (receivedWritten_zero _)
  · exact h

theorem Covering.afpRxErr {s : State} (h : Covering s) : Covering (afpRxErr s) := by
  rcases afpRxErr_cases s with ⟨_, eq⟩ | ⟨_, eq⟩ <;> rw [eq]
  · exact h.raiseHalt _
  · exact h

theorem Covering.afpTxErr {s : State} (h : Covering s) : Covering (afpTxErr s) := by
  rcases afpTxErr_cases s with ⟨_, eq⟩ | ⟨_, eq⟩ <;> rw [eq]
  · exact h.raiseHalt _
  · exact h

theorem Covering.afpCancel {s : State} (h : Covering s) : Covering (afpCancel s) := by
  rcases afpCancel_cases s with ⟨_, eq⟩ | ⟨_, eq⟩ <;> rw [eq]
  · exact h.raiseHalt _
  · exact h.reject _

/-! ## Step 1 of a received byte: the sample it completes is written -/

/-- A write of one cell leaves every written cell written. -/
theorem isSome_memReadCell_memWriteCell {m : Memory} {x : Nat}
    (h : (memReadCell m x).isSome = true) (a : Nat) (v : Sample) :
    (memReadCell (memWriteCell m a v) x).isSome = true := by
  rw [memReadCell_memWriteCell]
  split
  · rfl
  · exact h

/-- Step 1 of a received byte leaves every written cell written. -/
theorem isSome_memReadCell_disposeByte {s : State} {x : Nat} (b : Byte)
    (h : (memReadCell s.mem x).isSome = true) :
    (memReadCell (s.disposeByte b).mem x).isSome = true := by
  rcases disposeByte_cases s b with ⟨_, _, eq⟩ | ⟨_, _, eq⟩ | ⟨_, eq⟩ <;> rw [eq]
  · exact h
  · exact isSome_memReadCell_memWriteCell h _ _
  · exact h

/-- The first byte of a sample lies at an even offset. -/
theorem off_mod_two (layout : Layout) (n c i : Nat) : off layout n c i % 2 = 0 := by
  cases layout <;> simp only [off] <;> omega

/-- The two bytes of every sample lie in the sample region (42_frame_parser.md R171). -/
theorem off_add_one_lt {n c i : Nat} (layout : Layout) (hc : c < 2) (hi : i < n) :
    off layout n c i + 1 < 4 * n := by
  cases layout with
  | interleaved => simp only [off]; omega
  | planar =>
    have channel : c * n ≤ 1 * n := Nat.mul_le_mul_right n (by omega)
    simp only [off]; omega

/-- The second byte of a sample is located at that sample (42_frame_parser.md R171). -/
theorem loc_off_add_one {n c i : Nat} (layout : Layout) (hc : c < 2) (hi : i < n) :
    loc layout n (off layout n c i + 1) = (c, i) := by
  cases layout with
  | interleaved => simp only [loc, off, Prod.mk.injEq]; omega
  | planar =>
    have half : (2 * (c * n + i) + 1) / 2 = n * c + i := by rw [Nat.mul_comm n c]; omega
    have positive : 0 < n := by omega
    simp only [loc, off, half, Prod.mk.injEq]
    exact ⟨by rw [Nat.mul_add_div positive, Nat.div_eq_of_lt hi, Nat.add_zero],
      by rw [Nat.mul_add_mod, Nat.mod_eq_of_lt hi]⟩

/-- With the second byte of a sample at `pos`, step 1 writes the sample's cell. -/
theorem isSome_memReadCell_disposeByte_of_off {s : State} {c i : Nat} (b : Byte) (hc : c < 2)
    (hi : i < s.n) (second : off s.cfg.layout s.n c i + 1 = s.pos) :
    (memReadCell (s.disposeByte b).mem (cellAddr s.n s.fno c i)).isSome = true := by
  have even := off_mod_two s.cfg.layout s.n c i
  have inside := off_add_one_lt s.cfg.layout hc hi
  have place := loc_off_add_one s.cfg.layout hc hi
  rw [second] at place
  rcases disposeByte_cases s b with ⟨_, parity, _⟩ | ⟨_, _, eq⟩ | ⟨beyond, _⟩
  · omega
  · rw [eq, State.storeSample_mem, place, memReadCell_memWriteCell_self]
    rfl
  · simp only [State.sbytes] at beyond
    omega

/-- The received samples grow by the one whose second byte is at `pos`. -/
theorem State.ReceivedWritten.disposeByte {s : State} (h : s.ReceivedWritten s.pos) (b : Byte) :
    (s.disposeByte b).ReceivedWritten (s.pos + 1) := by
  intro c i hc hi before
  rw [disposeByte_frame] at hi before ⊢
  rcases Nat.lt_succ_iff_lt_or_eq.mp before with earlier | second
  · exact isSome_memReadCell_disposeByte b (h c i hc hi earlier)
  · exact isSome_memReadCell_disposeByte_of_off b hc hi second

theorem State.CompletedWritten.disposeByte {s : State} (h : s.CompletedWritten) (b : Byte) :
    (s.disposeByte b).CompletedWritten := by
  rw [disposeByte_frame]
  exact fun f completed inRange c i hc hi =>
    isSome_memReadCell_disposeByte b (h f completed inRange c i hc hi)

/-! ## Steps 2 and 3 of a received byte: the running frame becomes a completed one -/

/-- Beyond the last byte of a frame all its cells are written. -/
theorem State.ReceivedWritten.frameWritten {s : State} {k : Nat} (h : s.ReceivedWritten k)
    (all : s.fbytes ≤ k) : s.frameWritten s.fno := by
  intro c i hc hi
  refine h c i hc hi ?_
  have inside := off_add_one_lt s.cfg.layout hc hi
  simp only [State.fbytes, State.sbytes] at all
  omega

/-- The frame that ends is the number `frames`, unless that number is out of the range of `fno` (R46). -/
theorem State.CompletedWritten.frameTick {s : State} (h : s.CompletedWritten)
    (fno : s.fno = s.frames % 2 ^ s.cfg.fnoW) (running : s.frameWritten s.fno) :
    s.frameTick.CompletedWritten := by
  intro f completed inRange
  simp only [State.frameTick_frames, State.frameTick_cfg] at completed inRange
  rcases Nat.lt_succ_iff_lt_or_eq.mp completed with earlier | rfl
  · exact h f earlier inRange
  · rw [Nat.mod_eq_of_lt inRange] at fno
    exact fno ▸ running

/-- Steps 2 and 3 of a received byte, from a state in which step 1 has written what the byte at `pos`
completes. -/
theorem covering_advance {s : State} (inv : Inv s) (st : s.st = .rx) (completed : s.CompletedWritten)
    (received : s.ReceivedWritten (s.pos + 1)) : Covering s.advance := by
  obtain ⟨_, _, _, evt⟩ := inv.rx st
  have batch := inv.batchOk_eq_false (by simp [st])
  have ticked (last : s.fbytes ≤ s.pos + 1) : s.frameTick.CompletedWritten :=
    completed.frameTick inv.frames (received.frameWritten last)
  rcases advance_cases s with ⟨_, eq⟩ | ⟨last, mode, done, eq⟩ | ⟨last, _, _, eq⟩ | ⟨last, _, eq⟩ <;>
    rw [eq]
  · exact covering_of_rx batch completed received
  · have amount : s.amount.toNat = s.frames + 1 := by
      rw [← done, toNat_evt_succ evt, (inv.counts mode (.inr st)).2]
    exact covering_of_idle rfl mode fun _ f inBatch => 
        ticked last f (Nat.lt_of_lt_of_eq inBatch amount)
  · exact covering_of_rx batch (ticked last) (receivedWritten_zero _)
  · exact covering_of_not_rx nofun batch (ticked last)

theorem Covering.afpRxByte {s : State} (h : Covering s) (inv : Inv s) (b : Byte) :
    Covering (afpRxByte b s) := by
  by_cases st : s.st = .rx
  · rw [afpRxByte_rx b s st]
    have received : (s.disposeByte b).ReceivedWritten ((s.disposeByte b).pos + 1) := by
      have pos : (s.disposeByte b).pos = s.pos := by rw [disposeByte_frame]
      rw [pos]
      exact State.ReceivedWritten.disposeByte (h.current st) b
    exact covering_advance (inv.disposeByte b) (by simpa using st)
      ((h.completed (by simp [st])).disposeByte b) received
  · rw [afpRxByte_other b s st]
    exact h

/-! ## Every step keeps every covered cell written -/

theorem Primitive.keeps_covering {u t : State} (p : Primitive u t) (inv : Inv u) (h : Covering u) :
    Covering t := by
  cases p with
  | stay => exact h
  | tellCaller e => exact h.of_unread
  | showWord w => exact h.of_unread
  | send w _ => exact h.of_unread
  | sendFailed => exact h.cweSendFailed
  | sendFailedShown w => exact Covering.cweSendFailed h.of_unread
  | cfg v => exact h.afpCfg inv v
  | startBulk a => exact h.afpStartBulk a
  | startCont a => exact h.afpStartCont a
  | pull => exact h.afpPull inv
  | issue => exact h.afpIssue inv
  | rxByte b => exact h.afpRxByte inv b
  | rxErr => exact h.afpRxErr
  | txErr => exact h.afpTxErr
  | cancel => exact h.afpCancel
  | readCovered v => exact h.of_unread
  | readFree => exact h.of_unread
  | reset => exact covering_resetBlock u

/-- Settles O43: the primitive the step performs keeps `Covering`, which does not read the bookkeeping
the step changes before it. -/
theorem stepsKeepCoveredCellsWritten : Obligations.StepsKeepCoveredCellsWritten := by
  intro s t inv h hstep
  obtain ⟨sched, host, call, rxq, p⟩ := step_moves hstep
  exact p.keeps_covering inv.of_unread h.of_unread

end Sys2Proof.Machine
end

section
/-! The consumer's reads: a covered cell is written, so it reads as it was written (20_memory.md R67); any
other answers a free value or faults (notes/assumptions/11.md, notes/assumptions/25.md). -/

namespace Sys2Proof.Machine

theorem hasCell_eq_true_iff (s : State) (c i : Nat) : s.hasCell c i = true ↔ c < 2 ∧ i < s.n := by
  simp [State.hasCell]

/-- A covered frame is one of a finished batch or one handed over in continuous mode. -/
theorem Covering.frameWritten_of_covered {s : State} (h : Covering s) {f : Nat}
    (covered : s.covered f = true) : s.frameWritten f := by
  simp only [State.covered, State.handedOver, Bool.and_eq_true, Bool.or_eq_true, decide_eq_true_eq]
    at covered
  obtain ⟨inRange, ⟨finished, inBatch⟩ | ⟨⟨cont, completed⟩, _⟩⟩ := covered
  · exact h.finished finished f inBatch inRange
  · exact h.past (.inr (.inr (.inr cont))) f completed inRange

/-- A sample of the array is the content of its cell. -/
theorem sampleAt_of_covered {s : State} {f c i : Nat} (covered : s.covered f = true)
    (cell : s.hasCell c i = true) : s.sampleAt f c i = memReadCell s.mem (cellAddr s.n f c i) := by
  simp [State.sampleAt, covered, cell]

theorem sampleAt_eq_none_of_not_covered {s : State} {f : Nat} (uncovered : s.covered f = false)
    (c i : Nat) : s.sampleAt f c i = none := by
  simp [State.sampleAt, uncovered]

/-- Settles O44: the cell is written since its frame is covered, and the consumer is given its content. -/
theorem coveredCellsReadAsWritten : Obligations.CoveredCellsReadAsWritten := by
  intro s f c i h covered hc hi
  have cell : s.hasCell c i = true := (hasCell_eq_true_iff s c i).mpr ⟨hc, hi⟩
  obtain ⟨v, written⟩ := Option.isSome_iff_exists.mp (h.frameWritten_of_covered covered c i hc hi)
  have sample : s.sampleAt f c i = some v := by rw [sampleAt_of_covered covered cell, written]
  exact ⟨v, written, by simp only [consumerRead, cell, sample, if_true]⟩

/-- Settles O45: of the three outcomes of a read, the one that coverage and the index triple select. -/
theorem uncoveredReadsAnswerAFreeValue : Obligations.UncoveredReadsAnswerAFreeValue := by
  intro s f c i
  refine ⟨fun uncovered hc hi => ?free, fun outside => ?fault⟩
  case free =>
    have cell : s.hasCell c i = true := (hasCell_eq_true_iff s c i).mpr ⟨hc, hi⟩
    simp only [consumerRead, cell, sampleAt_eq_none_of_not_covered uncovered, if_true]
  case fault =>
    simp [consumerRead, (hasCell_eq_false_iff s c i).mpr outside]

end Sys2Proof.Machine
end

section
/-! What a step does to the memories and to the registers that are constant while an acquisition runs
(20_memory.md R51 to R54, R60, R69; 10_state.md R38). `step_moves` does not say which turn resets, nor what
becomes of the session's bytes, so the operations are followed once more from the primitives to the step:
every turn but `RESET` meets `Continues`, after it has dealt with the inbound bytes (`Effect`). -/

namespace Sys2Proof.Machine

/-- The step from `s` to `t` stores the sample whose second byte is at `pos`, in the cell of frame `fno`
that `loc` names (42_frame_parser.md R181, R183). -/
def StoresSample (s t : State) : Prop :=
  s.st = .rx ∧ s.pos < s.sbytes ∧ s.pos % 2 = 1 ∧
    ∃ c i v, loc s.cfg.layout s.n s.pos = (c, i) ∧ c < 2 ∧ i < s.n ∧
      t.out.sample = some ⟨s.fno, c, i, v⟩ ∧ t.mem = memWriteCell s.mem (cellAddr s.n s.fno c i) v

/-- `t` comes after `s` in the same session: what an operation of the host, the sequencer or the parser
does to the parameters, the length, `TX`, `OUT` and the session's bytes. -/
structure Continues (s t : State) : Prop where
  cfg : t.cfg = s.cfg
  rxq : t.rxq = s.rxq
  /-- The configuration and the start operations are accepted in `IDLE` only. -/
  length : (s.st = .cmd ∨ s.st = .rx ∨ s.st = .wait) →
    t.n = s.n ∧ t.nValid = s.nValid ∧ t.amount = s.amount ∧ t.mode = s.mode
  /-- A host command is sent in `IDLE`, the start command in `CMD`. -/
  tx : t.tx = s.tx ∨
    ∃ w, t.tx = s.tx ++ [w] ∧ (s.st = .idle ∨ (s.st = .cmd ∧ w = s.startWord))
  mem : t.mem = s.mem ∨ StoresSample s t

theorem Continues.refl (s : State) : Continues s s :=
  ⟨rfl, rfl, fun _ => ⟨rfl, rfl, rfl, rfl⟩, .inl rfl, .inl rfl⟩

/-- `Continues` speaks of no bookkeeping of `s` but its bytes. -/
theorem Continues.of_bookkeeping {s t : State} {out : Outputs} {sched : List Turn}
    {host call : List HostOp}
    (h : Continues { s with out := out, sched := sched, host := host, call := call } t) :
    Continues s t :=
  ⟨h.cfg, h.rxq, h.length, h.tx, h.mem⟩

/-- The registers of the sequencer, the outputs and the bookkeeping may change at any time. -/
theorem continues_of_sequencer (s : State) {st : SeqState} {pos : Nat} {cause : Cause} {out : Outputs}
    {sched : List Turn} {call : List HostOp} {freeCtr : Nat} :
    Continues s { s with
      st := st, pos := pos, cause := cause, out := out, sched := sched, call := call
      freeCtr := freeCtr } :=
  ⟨rfl, rfl, fun _ => ⟨rfl, rfl, rfl, rfl⟩, .inl rfl, .inl rfl⟩

/-- In `IDLE` the length, the mode and the amount may change with them. -/
theorem continues_of_idle {s : State} (st : s.st = .idle) {next : SeqState} {pos n fno frames : Nat}
    {nValid batchOk : Bool} {mode : Mode} {amount evt : Count} :
    Continues s { s with
      st := next, pos := pos, nValid := nValid, n := n, mode := mode, amount := amount, evt := evt
      fno := fno, batchOk := batchOk, frames := frames } :=
  ⟨rfl, rfl, fun running => by simp [st] at running, .inl rfl, .inl rfl⟩

/-! ## The operations of the parser and of the host at their ports -/

theorem continues_txWord {s : State} (st : s.st = .idle) (w : Word64) : Continues s (s.txWord w) :=
  ⟨rfl, rfl, fun running => by simp [st] at running, .inr ⟨w, rfl, .inl st⟩, .inl rfl⟩

theorem continues_sendCommand {code : Code} {sub : SubIx} {operand : Int} {s t : State}
    (h : sendCommand code sub operand s = .next t) : Continues s t := by
  rw [sendCommand_eq_cweSend] at h
  rcases cweSend_cases h with ⟨st, rfl⟩ | ⟨_, rfl⟩
  · exact continues_txWord st _
  · exact continues_of_sequencer s

theorem continues_cweSendFailed (s : State) : Continues s (cweSendFailed s) := by
  rcases cweSendFailed_cases s with ⟨_, eq⟩ | ⟨_, eq⟩ <;> rw [eq]
  · exact continues_of_sequencer s
  · exact .refl s

theorem continues_afpCfg (v : Nat) (s : State) : Continues s (afpCfg v s) := by
  rcases afpCfg_cases v s with ⟨st, _, eq⟩ | ⟨_, eq⟩ <;> rw [eq]
  · exact continues_of_idle st
  · exact continues_of_sequencer s

theorem continues_afpStartBulk (a : Count) (s : State) : Continues s (afpStartBulk a s) := by
  rcases afpStartBulk_cases a s with ⟨st, _, _, eq⟩ | ⟨_, eq⟩ <;> rw [eq]
  · exact continues_of_idle st
  · exact continues_of_sequencer s

theorem continues_afpStartCont (a : Count) (s : State) : Continues s (afpStartCont a s) := by
  rcases afpStartCont_cases a s with ⟨st, _, _, _, eq⟩ | ⟨_, eq⟩ <;> rw [eq]
  · exact continues_of_idle st
  · exact continues_of_sequencer s

theorem continues_afpPull (s : State) : Continues s (afpPull s) := by
  rcases afpPull_cases s with ⟨_, _, eq⟩ | ⟨_, _, eq⟩ | ⟨_, eq⟩ <;> rw [eq] <;>
    exact continues_of_sequencer s

/-- The start command goes out in `CMD`, whatever the sequencer does next. -/
theorem continues_of_startWord {s : State} (st : s.st = .cmd) {next : SeqState} {pos : Nat}
    {batchOk : Bool} {out : Outputs} :
    Continues s { s with
      st := next, pos := pos, batchOk := batchOk, tx := s.tx ++ [s.startWord], out := out } :=
  ⟨rfl, rfl, fun _ => ⟨rfl, rfl, rfl, rfl⟩, .inr ⟨_, rfl, .inr ⟨st, rfl⟩⟩, .inl rfl⟩

theorem continues_afpIssue (s : State) : Continues s (afpIssue s) := by
  rcases afpIssue_cases s with ⟨st, _, _, eq⟩ | ⟨st, _, eq⟩ | ⟨_, eq⟩ <;> rw [eq]
  · exact continues_of_startWord st
  · exact continues_of_startWord st
  · exact .refl s

theorem continues_afpRxErr (s : State) : Continues s (afpRxErr s) := by
  rcases afpRxErr_cases s with ⟨_, eq⟩ | ⟨_, eq⟩ <;> rw [eq]
  · exact continues_of_sequencer s
  · exact .refl s

theorem continues_afpTxErr (s : State) : Continues s (afpTxErr s) := by
  rcases afpTxErr_cases s with ⟨_, eq⟩ | ⟨_, eq⟩ <;> rw [eq]
  · exact continues_of_sequencer s
  · exact .refl s

theorem continues_afpCancel (s : State) : Continues s (afpCancel s) := by
  rcases afpCancel_cases s with ⟨_, eq⟩ | ⟨_, eq⟩ <;> rw [eq] <;> exact continues_of_sequencer s

theorem continues_consumerRead {f c i : Nat} {s t : State} (h : consumerRead f c i s = .next t) :
    Continues s t := by
  rcases consumerRead_cases f c i s with ⟨_, _, _, eq⟩ | ⟨_, _, eq⟩ | ⟨_, eq⟩ <;> rw [eq] at h <;> cases h
  · exact continues_of_sequencer s
  · exact continues_of_sequencer s

/-! ## A received byte -/

/-- Every offset of the sample region is located at a sample of the array (42_frame_parser.md R171). -/
theorem loc_lt {n p : Nat} (layout : Layout) (h : p < 4 * n) :
    (loc layout n p).1 < 2 ∧ (loc layout n p).2 < n := by
  cases layout with
  | interleaved => simp only [loc]; omega
  | planar =>
    have positive : 0 < n := by omega
    exact ⟨Nat.div_lt_of_lt_mul (by omega), Nat.mod_lt _ positive⟩

/-- Steps 2 and 3 of a received byte write the sequencer's registers, `batch_ok` and the pulses only. -/
theorem advance_frame (s : State) :
    s.advance = { s with
      st := s.advance.st, pos := s.advance.pos, evt := s.advance.evt, fno := s.advance.fno
      batchOk := s.advance.batchOk, frames := s.advance.frames, out := s.advance.out } ∧
    s.advance.out.sample = s.out.sample := by
  rcases advance_cases s with ⟨_, eq⟩ | ⟨_, _, _, eq⟩ | ⟨_, _, _, eq⟩ | ⟨_, _, eq⟩ <;> rw [eq] <;>
    exact ⟨rfl, rfl⟩

/-- Step 1 of a received byte leaves `OUT`, or it writes the cell of the sample it completes. -/
theorem disposeByte_mem_or_storesSample {s : State} (st : s.st = .rx) (b : Byte) :
    (s.disposeByte b).mem = s.mem ∨ StoresSample s (s.disposeByte b) := by
  rcases disposeByte_cases s b with ⟨_, _, eq⟩ | ⟨inside, odd, eq⟩ | ⟨_, eq⟩ <;> rw [eq]
  · exact .inl rfl
  · obtain ⟨channel, index⟩ := loc_lt s.cfg.layout inside
    exact .inr ⟨st, inside, odd, _, _, _, rfl, channel, index, rfl, rfl⟩
  · exact .inl rfl

theorem continues_disposeByte {s : State} (st : s.st = .rx) (b : Byte) :
    Continues s (s.disposeByte b) := by
  have mem := disposeByte_mem_or_storesSample st b
  rw [disposeByte_frame] at mem ⊢
  exact ⟨rfl, rfl, fun _ => ⟨rfl, rfl, rfl, rfl⟩, .inl rfl, mem⟩

theorem Continues.advance {s t : State} (h : Continues s t) : Continues s t.advance := by
  obtain ⟨frame, sample⟩ := advance_frame t
  have mem : t.advance.mem = s.mem ∨ StoresSample s t.advance := by
    simp only [StoresSample, sample]
    rw [frame]
    exact h.mem
  rw [frame] at mem ⊢
  exact ⟨h.cfg, h.rxq, h.length, h.tx, mem⟩

theorem continues_afpRxByte (b : Byte) (s : State) : Continues s (afpRxByte b s) := by
  by_cases st : s.st = .rx
  · rw [afpRxByte_rx b s st]
    exact (continues_disposeByte st b).advance
  · rw [afpRxByte_other b s st]
    exact .refl s

/-! ## The host's operations -/

theorem continues_runExpansion (e : Except CallerError (List HostOp)) (s : State) :
    Continues s (runExpansion e s) := by
  cases e <;> exact continues_of_sequencer s

theorem continues_endAwaitBatch (s : State) : Continues s (endAwaitBatch s) := by
  unfold endAwaitBatch
  repeat' split
  all_goals exact continues_of_sequencer s

theorem continues_endAwaitFrame (s : State) : Continues s (endAwaitFrame s) := by
  unfold endAwaitFrame
  split <;> exact continues_of_sequencer s

theorem continues_runHostOp {op : HostOp} {s t : State} (h : runHostOp op s = .next t) :
    Continues s t := by
  cases op <;> simp only [runHostOp, Host.Outcome.next.injEq] at h
  case send => exact continues_sendCommand h
  case read => exact continues_consumerRead h
  all_goals subst h
  case encode => exact continues_of_sequencer s
  case cfg v => exact continues_afpCfg v s
  case startBulk a => exact continues_afpStartBulk a s
  case startCont a => exact continues_afpStartCont a s
  case pull => exact continues_afpPull s
  case cancel => exact continues_afpCancel s
  case awaitBatch => exact continues_endAwaitBatch s
  case awaitFrame => exact continues_endAwaitFrame s
  all_goals exact continues_runExpansion _ s

/-- An operation that has to wait shows its word at most. -/
theorem continues_offerOp (op : HostOp) (s : State) : Continues s (offerOp op s) := by
  rcases offerOp_cases op s with ⟨_, _, _, _, eq⟩ | eq <;> rw [eq] <;> exact continues_of_sequencer s

theorem continues_tryHostOp {op : HostOp} {s t : State} {host call : List HostOp}
    (h : tryHostOp op s { s with host := host, call := call } = .next t) : Continues s t := by
  rcases tryHostOp_cases h with ⟨_, ho⟩ | ⟨_, ho⟩
  · cases ho; exact continues_offerOp op s
  · exact (continues_runHostOp ho.symm).of_bookkeeping

theorem continues_hostTurn {s t : State} (h : hostTurn s = .next t) : Continues s t := by
  rcases hostTurn_cases h with ⟨_, _, ho⟩ | ⟨_, _, _, _, ho⟩ | ⟨_, _, _, _, ho⟩ | ⟨_, _, _, _, ho⟩
  · cases ho; exact .refl s
  · cases ho; exact continues_of_sequencer s
  · exact continues_tryHostOp (host := s.host) ho.symm
  · exact continues_tryHostOp (call := s.call) ho.symm

/-! ## The other turns -/

theorem continues_txErrWith (offered : Bool) (s : State) : Continues s (txErrWith offered s) := by
  unfold txErrWith
  split
  · exact continues_cweSendFailed s
  · exact continues_afpTxErr s

theorem continues_txErrTurn (s : State) : Continues s (txErrTurn s) := by
  unfold txErrTurn
  split
  · split
    · rw [dropPending_eq]
      exact (continues_cweSendFailed _).of_bookkeeping
    · exact continues_afpTxErr s
  · exact continues_afpTxErr s

/-- What the first of `turns` does to the session: it ends with `RESET`; else its bytes stay, or lose the
first one in `RX`, or grow by those that arrive, and what follows goes on from there. -/
inductive Effect (turns : List Turn) (s t : State) : Prop
  | reset (rest : List Turn) (turn : turns = .rst :: rest) (tx : t.tx = []) (rxq : t.rxq = [])
      (cfg : t.cfg = s.cfg) (mem : t.mem = s.mem)
  | goesOn (h : Continues s t)
  | takes (b : Byte) (bytes : List Byte) (st : s.st = .rx) (head : s.rxq = b :: bytes)
      (h : Continues { s with rxq := bytes } t)
  | arrives (bytes : List Byte) (rest : List Turn) (turn : turns = .arrive bytes :: rest)
      (h : Continues { s with rxq := s.rxq ++ bytes } t)

theorem effect_deviceTurn (turns : List Turn) (s : State) : Effect turns s (deviceTurn s) := by
  unfold deviceTurn
  split
  · exact .goesOn (.refl s)
  · next b bytes head =>
    split
    · next ready => exact .takes b bytes ((rxReady_iff s).mp ready) head (continues_afpRxByte b _)
    · exact .goesOn (.refl s)

theorem effect_transferTurn (turns : List Turn) {p : PortInputs} {s t : State}
    (h : transferTurn p s = .next t) : Effect turns s t := by
  unfold transferTurn at h
  cases st : s.st <;> simp only [st] at h
  case rx =>
    split at h <;> cases h
    · exact effect_deviceTurn turns s
    · exact .goesOn (.refl s)
  case cmd =>
    split at h <;> cases h
    · exact .goesOn (continues_afpIssue s)
    · exact .goesOn (.refl s)
  case idle =>
    split at h
    · exact .goesOn (continues_sendCommand h)
    · cases h; exact .goesOn (.refl s)
  case wait | halt => cases h; exact .goesOn (.refl s)

theorem effect_clock (turns : List Turn) (p : PortInputs) (s : State) :
    Effect turns s (showPorts p { s with sched := clockTurns p ++ s.sched }) := by
  unfold showPorts
  split <;> exact .goesOn (continues_of_sequencer s)

theorem effect_takeTurn {turn : Turn} {s t : State} (rest : List Turn) (h : takeTurn turn s = .next t) :
    Effect (turn :: rest) s t := by
  cases turn <;> simp only [takeTurn, Host.Outcome.next.injEq] at h
  case host => exact .goesOn (continues_hostTurn h)
  case strobe => exact .goesOn (continues_runHostOp h)
  case transfer => exact effect_transferTurn _ h
  all_goals subst h
  case sequencer => exact .goesOn (continues_afpIssue s)
  case arrive bytes => exact .arrives bytes rest rfl (.refl _)
  case device => exact effect_deviceTurn _ s
  case rxErr => exact .goesOn (continues_afpRxErr s)
  case txErr => exact .goesOn (continues_txErrTurn s)
  case rst => exact .reset rest rfl rfl rfl rfl rfl
  case txErrPort offered => exact .goesOn (continues_txErrWith offered s)
  case clock p => exact effect_clock _ p s

/-- What a step does to the session, from the state as it was before the turn is taken off the list. -/
theorem effect_step {s t : State} (h : step s = .next t) : Effect s.sched s t := by
  cases hsched : s.sched with
  | nil =>
    rw [step_of_sched_nil hsched] at h
    cases h
    exact .goesOn (continues_of_sequencer s)
  | cons turn rest =>
    rw [step_of_sched_cons hsched] at h
    cases effect_takeTurn rest h with
    | reset rest turn tx rxq cfg mem => exact .reset rest turn tx rxq cfg mem
    | goesOn h => exact .goesOn (Continues.of_bookkeeping (s := s) h)
    | takes b bytes st head h => exact .takes b bytes st head h.of_bookkeeping
    | arrives bytes rest turn h => exact .arrives bytes rest turn h.of_bookkeeping

/-- A step resets, or it goes on in the same session. -/
theorem Effect.reset_or_continues {turns : List Turn} {s t : State} (h : Effect turns s t) :
    ((∃ rest, turns = .rst :: rest) ∧ t.tx = [] ∧ t.cfg = s.cfg ∧ t.mem = s.mem) ∨
    ∃ rxq, Continues { s with rxq := rxq } t := by
  cases h with
  | reset rest turn tx rxq cfg mem => exact .inl ⟨⟨rest, turn⟩, tx, cfg, mem⟩
  | goesOn h => exact .inr ⟨s.rxq, h⟩
  | takes b bytes st head h => exact .inr ⟨_, h⟩
  | arrives bytes rest turn h => exact .inr ⟨_, h⟩

/-! ## The statements about the memories -/

/-- The fields of a command word lie side by side (40_encoder.md R101). -/
theorem toNat_cwePack (code : Code) (sub : SubIx) (value : Value) :
    (cwePack code sub value).toNat = code.toNat * 2 ^ 56 + sub.toNat * 2 ^ 52 + value.toNat := by
  simp only [cwePack, BitVec.toNat_append]
  rw [← Nat.shiftLeft_add_eq_or_of_lt sub.isLt, ← Nat.shiftLeft_add_eq_or_of_lt value.isLt]
  simp only [Nat.shiftLeft_eq]
  omega

theorem toNat_startWord (s : State) : s.startWord.toNat = 0x1F00000000000000 + s.amount.toNat := by
  rw [State.startWord, cweEncode_toNat, toNat_cwePack]
  rfl

/-- Settles O46: `TX` by the clause of `Continues`, with the start word read as a number. -/
theorem transmitHistoryGrowsByWholeWords : Obligations.TransmitHistoryGrowsByWholeWords := by
  intro s t hstep
  rcases (effect_step hstep).reset_or_continues with ⟨turn, tx, _, _⟩ | ⟨_, h⟩
  · exact .inr (.inr ⟨tx, turn⟩)
  · rcases h.tx with same | ⟨w, tx, idle | ⟨cmd, rfl⟩⟩
    · exact .inl same
    · exact .inr (.inl ⟨w, tx, .inl idle⟩)
    · exact .inr (.inl ⟨_, tx, .inr ⟨cmd, toNat_startWord s⟩⟩)

/-- Settles O47: `OUT` by the clause of `Continues`; `RESET` leaves it. -/
theorem outChangesByOneSampleOnly : Obligations.OutChangesByOneSampleOnly := by
  intro s t hstep
  rcases (effect_step hstep).reset_or_continues with ⟨_, _, _, mem⟩ | ⟨_, h⟩
  · exact .inl mem
  · exact h.mem

/-- Settles O42: what a step writes to `OUT` is nothing or one cell. -/
theorem stepsKeepMemoryCanonical : Obligations.StepsKeepMemoryCanonical := by
  intro s t canonical hstep
  rcases outChangesByOneSampleOnly s t hstep with mem | ⟨_, _, _, _, _, _, _, _, _, _, mem⟩ <;> rw [mem]
  · exact canonical
  · exact memWriteCell_wf _ _ _ canonical

/-- Settles O48: the cases of `Effect`. -/
theorem inboundBytesAreTakenInOrder : Obligations.InboundBytesAreTakenInOrder := by
  intro s t hstep
  cases effect_step hstep with
  | reset rest turn tx rxq cfg mem => exact .inr (.inr (.inr ⟨rxq, rest, turn⟩))
  | goesOn h => exact .inl h.rxq
  | takes b bytes st head h => exact .inr (.inl ⟨st, b, by rw [h.rxq, head]⟩)
  | arrives bytes rest turn h => exact .inr (.inr (.inl ⟨bytes, rest, turn, h.rxq⟩))

/-- Settles O49: the derived lengths follow `n` and the parameters. -/
theorem lengthIsConstantDuringAnAcquisition : Obligations.LengthIsConstantDuringAnAcquisition := by
  intro s t hstep
  rcases (effect_step hstep).reset_or_continues with ⟨turn, _, cfg, _⟩ | ⟨_, h⟩
  · exact ⟨cfg, fun _ => .inr turn⟩
  · refine ⟨h.cfg, fun running => .inl ?_⟩
    obtain ⟨n, nValid, amount, mode⟩ := h.length running
    have sbytes : t.sbytes = s.sbytes := congrArg (4 * ·) n
    have fbytes : t.fbytes = s.fbytes := by simp only [State.fbytes, State.pbytes, sbytes, h.cfg]
    exact ⟨n, nValid, amount, mode, sbytes, fbytes⟩

end Sys2Proof.Machine
end

section
/-! The codec read backwards: the bytes of a word and the fields of a word determine it (30_encoding.md R70,
R71), so decoding is answered by equations on the bytes, in both directions at once. -/

namespace Sys2Proof

/-! ## Places in a word as numbers -/

/-- Bits put side by side add up, since the places of the two parts do not meet. -/
theorem toNat_append_eq_add {m n : Nat} (high : BitVec m) (low : BitVec n) :
    (high ++ low).toNat = high.toNat * 2 ^ n + low.toNat := by
  rw [BitVec.toNat_append, ← Nat.shiftLeft_add_eq_or_of_lt low.isLt, Nat.shiftLeft_eq]

/-- The number that stands in a place of a word. -/
theorem toNat_extractLsb'_eq_div {n : Nat} (x : BitVec n) (place width : Nat) :
    (x.extractLsb' place width).toNat = x.toNat / 2 ^ place % 2 ^ width := by
  rw [BitVec.extractLsb'_toNat, Nat.shiftRight_eq_div_pow]

/-! ## The bytes of a word -/

/-- The eight bytes of a word, put side by side, are the word (40_encoder.md R109). -/
@[simp] theorem wordOfBytes_wordByte (w : Word64) :
    wordOfBytes (wordByte w 0) (wordByte w 1) (wordByte w 2) (wordByte w 3)
      (wordByte w 4) (wordByte w 5) (wordByte w 6) (wordByte w 7) = w := by
  simp only [wordOfBytes, wordByte, BitVec.extractLsb'_append_extractLsb'_eq_extractLsb']
  exact BitVec.extractLsb'_eq_self

theorem toNat_wordByte (w : Word64) (k : Nat) :
    (wordByte w k).toNat = w.toNat / 2 ^ (8 * k) % 2 ^ 8 :=
  toNat_extractLsb'_eq_div w (8 * k) 8

/-- The weights of the eight bytes of a word (40_encoder.md R109). -/
theorem toNat_wordOfBytes (b0 b1 b2 b3 b4 b5 b6 b7 : Byte) :
    (wordOfBytes b0 b1 b2 b3 b4 b5 b6 b7).toNat =
      b7.toNat * 2 ^ 56 + b6.toNat * 2 ^ 48 + b5.toNat * 2 ^ 40 + b4.toNat * 2 ^ 32 +
        b3.toNat * 2 ^ 24 + b2.toNat * 2 ^ 16 + b1.toNat * 2 ^ 8 + b0.toNat := by
  simp only [wordOfBytes, toNat_append_eq_add]
  omega

/-- The other wire order sends the same bytes the other way round (40_encoder.md R108). -/
theorem serWord_be (w : Word64) : serWord .be w = (serWord .le w).reverse := rfl

/-- Eight bytes put side by side go back on the wire as they were (40_encoder.md R109). -/
theorem serWord_le_wordOfBytes (b0 b1 b2 b3 b4 b5 b6 b7 : Byte) :
    serWord .le (wordOfBytes b0 b1 b2 b3 b4 b5 b6 b7) = [b0, b1, b2, b3, b4, b5, b6, b7] := by
  simp only [serWord, List.cons.injEq, and_true, ← BitVec.toNat_inj, toNat_wordByte, toNat_wordOfBytes]
  omega

/-- The deserialiser takes a word and what follows it off exactly the bytes the serialiser gives
(40_encoder.md R109). -/
theorem deserWord_eq_some_iff {order : ByteOrder} {bytes rest : List Byte} {w : Word64} :
    deserWord order bytes = some (w, rest) ↔ bytes = serWord order w ++ rest := by
  constructor
  · intro h
    unfold deserWord at h
    split at h
    · cases order <;> cases h <;> simp [serWord_be, serWord_le_wordOfBytes]
    · cases h
  · rintro rfl
    cases order <;> simp [serWord, deserWord]

/-! ## The fields of a word -/

/-- The three fields of a word, put side by side, are the word (40_encoder.md R112, R114). -/
@[simp] theorem cwePack_cweDecode (w : Word64) :
    cwePack (cweDecode w).code (cweDecode w).sub (cweDecode w).value = w := by
  simp only [cwePack, cweDecode, BitVec.extractLsb'_append_extractLsb'_eq_extractLsb']
  exact BitVec.extractLsb'_eq_self

/-- The opcode map, row by row: the fields of a command are read as that command (30_encoding.md R83). -/
theorem decodeFields_of_command (i : Instr) : decodeFields ⟨i.code, i.sub, i.value⟩ = .ok i := by
  cases i <;> rfl

/-- A command has one word, and that word no other command. -/
theorem decodeWord_eq_ok_iff {w : Word64} {i : Instr} : decodeWord w = .ok i ↔ w = encode i := by
  constructor
  · intro h
    have fields : cweDecode w = ⟨i.code, i.sub, i.value⟩ := decodeFields_ok h
    rw [← cwePack_cweDecode w, fields, encode]
  · rintro rfl
    rw [decodeWord, encode, cweDecode_cwePack, decodeFields_of_command]

/-! ## Commands on the wire -/

/-- What the decoder answers is the word at the head of the bytes, decoded. -/
theorem decodeBytes_eq_ok_iff {order : ByteOrder} {bytes rest : List Byte} {i : Instr} :
    decodeBytes order bytes = .ok (i, rest) ↔
      ∃ w, deserWord order bytes = some (w, rest) ∧ decodeWord w = .ok i := by
  unfold decodeBytes
  split
  · next short => simp [short]
  · next w _ word =>
    rw [word]
    split
    · next decoded => simp [decoded, and_comm]
    · next refused => simp [refused]

/-- A command is decoded off exactly the bytes of its encoding, whatever follows them. -/
theorem decodeBytes_eq_ok_iff_encodeBytes {order : ByteOrder} {bytes rest : List Byte} {i : Instr} :
    decodeBytes order bytes = .ok (i, rest) ↔ bytes = encodeBytes order i ++ rest := by
  simp only [decodeBytes_eq_ok_iff, deserWord_eq_some_iff, decodeWord_eq_ok_iff, encodeBytes,
    exists_eq_right]

/-- Settles O9: its two clauses are the two directions of one equivalence. -/
theorem commandsRoundTripOnTheWire : Obligations.CommandsRoundTripOnTheWire :=
  ⟨fun _ _ _ => decodeBytes_eq_ok_iff_encodeBytes.mpr rfl,
    fun _ _ _ _ => decodeBytes_eq_ok_iff_encodeBytes.mp⟩

end Sys2Proof
end

section
/-! The operand of command 28 as a natural number, and the places of its index and its weight
(30_encoding.md R81). -/

namespace Sys2Proof.Machine

/-- With a weight that has no sign the operand of command 28 is a natural number. -/
theorem valueField_binOperand (index weight : Nat) :
    valueField (binOperand index weight) = BitVec.ofNat 52 (index * 2 ^ 32 + weight) := by
  rw [← BitVec.ofInt_natCast]
  simp [valueField, binOperand]

/-- An index below 4096 and a weight below `2^32` fit the value field, so nothing is reduced. -/
theorem toNat_valueField_binOperand {index weight : Nat} (hindex : index < 4096)
    (hweight : weight < 2 ^ 32) :
    (valueField (binOperand index weight)).toNat = index * 2 ^ 32 + weight := by
  rw [valueField_binOperand, BitVec.toNat_ofNat, Nat.mod_eq_of_lt (by omega)]

/-- Settles O12: the value field read as the number `index * 2^32 + weight`, each place by division. -/
theorem spectrumBinOperandPacksIndexAndWeight : Obligations.SpectrumBinOperandPacksIndexAndWeight := by
  intro index weight hindex nonneg hweight
  lift weight to Nat using nonneg
  have field := toNat_valueField_binOperand hindex (weight := weight) (by omega)
  refine ⟨⟨?index, ?weight, ?unused, ?word⟩, ?spill⟩
  case index => rw [toNat_extractLsb'_eq_div, field]; omega
  case weight => rw [toNat_extractLsb'_eq_div, field]; omega
  case unused =>
    apply BitVec.eq_of_toNat_eq
    rw [toNat_extractLsb'_eq_div, field]
    have zero : (0 : BitVec 8).toNat = 0 := rfl
    omega
  case word =>
    rw [cweEncode, toNat_cwePack, field]
    have code : (28 : Code).toNat = 28 := rfl
    have sub : (0 : SubIx).toNat = 0 := rfl
    omega
  case spill => simp only [binOperand]; omega

end Sys2Proof.Machine
end

section
/-! The host's turn in `IDLE` with a command pending (40_encoder.md R102, R110). -/

namespace Sys2Proof.Machine

/-- `IDLE` is where `host_cmd_ready` is high, so there a command has not to wait (40_encoder.md R110). -/
theorem hostWaits_send_of_idle {s : State} (idle : s.st = .idle) (code : Code) (sub : SubIx)
    (operand : Int) : hostWaits (.send code sub operand) s = false := by
  simp [hostWaits, (hostCmdReady_iff s).mpr idle]

/-- With no call in progress the host tries its first pending operation. -/
theorem hostTurn_of_pending {s : State} {op : HostOp} {ops : List HostOp} (call : s.call = [])
    (host : s.host = op :: ops) : hostTurn s = tryHostOp op s { s with host := ops } := by
  simp only [hostTurn, call, host]

/-- An operation that has not to wait is run. -/
theorem tryHostOp_of_ready {op : HostOp} {s : State} (ready : hostWaits op s = false) (taken : State) :
    tryHostOp op s taken = runHostOp op taken := by
  simp [tryHostOp, ready]

/-- A pending command is sent in `IDLE` whatever its code is: the word is appended to `TX` and nothing
else changes (40_encoder.md R102, R110). -/
theorem step_of_pending_send {s : State} {rest : List Turn} {ops : List HostOp} {code : Code}
    {sub : SubIx} {operand : Int} (sched : s.sched = .host :: rest) (call : s.call = [])
    (host : s.host = .send code sub operand :: ops) (idle : s.st = .idle) :
    step s = .next ({ s.took rest with host := ops }.txWord (cweEncode code sub operand)) := by
  calc step s
    _ = hostTurn (s.took rest) := step_of_sched_cons sched
    _ = tryHostOp (.send code sub operand) (s.took rest) { s.took rest with host := ops } :=
      hostTurn_of_pending call host
    _ = sendCommand code sub operand { s.took rest with host := ops } :=
      tryHostOp_of_ready (s := s.took rest) (hostWaits_send_of_idle idle code sub operand) _
    _ = cweSend code sub operand { s.took rest with host := ops } := sendCommand_eq_cweSend ..
    _ = _ := cweSend_idle _ _ _ _ idle

/-- Settles O20: the rule for a pending command holds of every code, so of the unassigned ones. -/
theorem unassignedCodesAreSentUnchanged : Obligations.UnassignedCodesAreSentUnchanged := by
  intro s rest ops code sub operand sched call host idle _
  exact ⟨cweEncode code sub operand, cweDecode_cweEncode code sub operand,
    step_of_pending_send sched call host idle⟩

end Sys2Proof.Machine
end

section
/-! The operand of a command modulo `2^52` (30_encoding.md R79, R80; 40_encoder.md R101 to R107). The value
field is all that a word keeps of its operand, so each statement about encoding is one about the field. -/

namespace Sys2Proof

/-! ## The value field of an operand -/

/-- The unsigned reading of the field (40_encoder.md R101). -/
theorem toNat_valueField (operand : Int) : ((valueField operand).toNat : Int) = operand % 2 ^ 52 := by
  rw [valueField, BitVec.toNat_ofInt]
  omega

/-- The signed reading of the field (40_encoder.md R106): the upper half of the range counts from below. -/
theorem toInt_valueField (operand : Int) :
    (valueField operand).toInt =
      if operand % 2 ^ 52 < 2 ^ 51 then operand % 2 ^ 52 else operand % 2 ^ 52 - 2 ^ 52 := by
  have field := toNat_valueField operand
  rw [BitVec.toInt_eq_toNat_cond]
  split <;> split <;> omega

/-- Two operands share a field exactly when they differ by a multiple of `2^52` (40_encoder.md R105). -/
theorem valueField_eq_iff {operand operand' : Int} :
    valueField operand = valueField operand' ↔ ∃ k : Int, operand' = operand + k * 2 ^ 52 := by
  have field := toNat_valueField operand
  have field' := toNat_valueField operand'
  rw [← BitVec.toNat_inj]
  constructor
  · intro same
    exact ⟨(operand' - operand) / 2 ^ 52, by omega⟩
  · rintro ⟨k, rfl⟩
    omega

/-- A value input at least as wide as the field holds the field in its low bits (40_encoder.md R103). -/
theorem valueField_toInt {width : Nat} (x : BitVec width) (wide : 52 ≤ width) :
    valueField x.toInt = x.setWidth 52 :=
  BitVec.signExtend_eq_setWidth_of_le x wide

/-! ## Words and their fields -/

/-- A word is packed from its own fields only (40_encoder.md R107). -/
theorem cwePack_eq_iff {code : Code} {sub : SubIx} {value : Value} {w : Word64} :
    cwePack code sub value = w ↔ (⟨code, sub, value⟩ : CweFields) = cweDecode w := by
  constructor
  · rintro rfl
    exact (cweDecode_cwePack code sub value).symm
  · intro fields
    rw [← cwePack_cweDecode w, ← fields]

/-- An encoding is determined by its code, its sub-index and its value field (40_encoder.md R107). -/
theorem cweEncode_eq_iff {code code' : Code} {sub sub' : SubIx} {operand operand' : Int} :
    cweEncode code sub operand = cweEncode code' sub' operand' ↔
      code = code' ∧ sub = sub' ∧ valueField operand = valueField operand' := by
  rw [cweEncode, cwePack_eq_iff, cweDecode_cweEncode, CweFields.mk.injEq]

/-- Settles O1: the sum of the three places, with the unsigned reading of the value field. -/
theorem encodedWordIsTheSumOfItsFields : Obligations.EncodedWordIsTheSumOfItsFields := by
  refine ⟨fun code sub operand => ?_, by decide⟩
  rw [cweEncode, Machine.toNat_cwePack]
  have field := toNat_valueField operand
  omega

/-- Settles O2: operands a multiple of `2^52` apart share their value field. -/
theorem encodingWrapsModuloTwoToThe52 : Obligations.EncodingWrapsModuloTwoToThe52 := by
  refine ⟨fun code sub operand k => cweEncode_eq_iff.mpr ⟨rfl, rfl, valueField_eq_iff.mpr ⟨k, rfl⟩⟩, ?_⟩
  intro code sub
  simp only [cweDecode_cweEncode]
  decide

/-- Settles O3: a word's one triple is its decoding, and a value field is shared modulo `2^52`. -/
theorem wordsAndFieldsCorrespondOneToOne : Obligations.WordsAndFieldsCorrespondOneToOne := by
  refine ⟨fun w => ⟨cweDecode w, cwePack_cweDecode w, fun g packed => cwePack_eq_iff.mp packed⟩, ?_⟩
  intro code code' sub sub' operand operand'
  rw [cweEncode_eq_iff, valueField_eq_iff]

/-- Settles O4: unpacking a packed word and packing an unpacked one, with the value field's reading. -/
theorem fieldsRoundTripThroughTheWord : Obligations.FieldsRoundTripThroughTheWord := by
  constructor
  · intro code sub operand
    rw [cweDecode_cweEncode]
    exact ⟨rfl, rfl, toNat_valueField operand⟩
  · intro w
    rw [cweEncode_toNat, cwePack_cweDecode]

/-- Settles O5: the port and the integer formula fill the value field with the same low 52 bits. -/
theorem valuePortAgreesWithTheInteger : Obligations.ValuePortAgreesWithTheInteger := by
  intro width code sub x wide
  refine ⟨?integer, fun y same => ?highBits, fun value => ?field⟩
  case integer => rw [cweEncodePort, cweEncode, valueField_toInt x wide]
  case highBits => rw [cweEncodePort, cweEncodePort, same]
  case field => rw [cweEncodePort, BitVec.setWidth_eq]

/-- Settles O6: both readings of the value field are known, so each range is arithmetic modulo `2^52`. -/
theorem signedReadingIsExactOnItsRange : Obligations.SignedReadingIsExactOnItsRange := by
  intro code sub operand
  simp only [signedValue, cweDecode_cweEncode, toNat_valueField, toInt_valueField]
  refine ⟨?unsigned, ?signed, ?upperHalf, ?boundary, by decide⟩
  case unsigned => omega
  case signed => split <;> omega
  case upperHalf => intro low high; split <;> omega
  case boundary => exact cweEncode_eq_iff.mpr ⟨rfl, rfl, by decide⟩

end Sys2Proof
end

section
/-! The bytes of a word on the wire, place by place, in both orders (40_encoder.md R108, R109). -/

namespace Sys2Proof

/-- `LE` sends the least significant byte first (40_encoder.md R108). -/
theorem getElem?_serWord_le (w : Word64) {k : Nat} (hk : k < 8) :
    (serWord .le w)[k]? = some (wordByte w k) := by
  have bytes : serWord .le w = (List.range 8).map (wordByte w) := rfl
  rw [bytes, List.getElem?_map, List.getElem?_range hk, Option.map_some]

theorem length_serWord (order : ByteOrder) (w : Word64) : (serWord order w).length = 8 := by
  cases order <;> rfl

/-- `BE` sends the most significant byte first (40_encoder.md R108). -/
theorem getElem?_serWord_be (w : Word64) {k : Nat} (hk : k < 8) :
    (serWord .be w)[k]? = some (wordByte w (7 - k)) := by
  rw [serWord_be, List.getElem?_reverse (by rwa [length_serWord]), length_serWord,
    getElem?_serWord_le w (by omega)]

/-! ## Where the fields lie -/

theorem wordByte_cwePack_seven (code : Code) (sub : SubIx) (value : Value) :
    wordByte (cwePack code sub value) 7 = code := by
  apply BitVec.eq_of_toNat_eq
  rw [toNat_wordByte, Machine.toNat_cwePack]
  omega

/-- The sub-index shares its byte with the upper end of the value (40_encoder.md R108). -/
theorem wordByte_cwePack_six (code : Code) (sub : SubIx) (value : Value) :
    wordByte (cwePack code sub value) 6 = sub ++ value.extractLsb' 48 4 := by
  apply BitVec.eq_of_toNat_eq
  rw [toNat_wordByte, Machine.toNat_cwePack, toNat_append_eq_add, toNat_extractLsb'_eq_div]
  omega

theorem wordByte_cwePack_zero (code : Code) (sub : SubIx) (value : Value) :
    wordByte (cwePack code sub value) 0 = value.extractLsb' 0 8 := by
  apply BitVec.eq_of_toNat_eq
  rw [toNat_wordByte, Machine.toNat_cwePack, toNat_extractLsb'_eq_div]
  omega

/-- Settles O7: the byte at each place on the wire, and which field fills it. -/
theorem bytesOfAWordOnTheWire : Obligations.BytesOfAWordOnTheWire := by
  refine ⟨fun w k hk => ⟨getElem?_serWord_le w hk, ?mirrored⟩, length_serWord,
    fun code sub value => ?fields, by decide, by decide⟩
  case mirrored =>
    have place : 56 - 8 * k = 8 * (7 - k) := by omega
    rw [getElem?_serWord_be w hk, place, wordByte]
  case fields =>
    have byte7 := wordByte_cwePack_seven code sub value
    have byte6 := wordByte_cwePack_six code sub value
    have byte0 := wordByte_cwePack_zero code sub value
    exact ⟨congrArg some byte7, congrArg some byte6, congrArg some byte0,
      congrArg some byte7, congrArg some byte6, congrArg some byte0⟩

/-- Settles O8: the first two clauses are the two directions of one equivalence, and the word of eight bytes
has their weights. -/
theorem deserialisingInvertsSerialising : Obligations.DeserialisingInvertsSerialising := by
  refine ⟨fun _ _ _ => deserWord_eq_some_iff.mpr rfl, fun _ _ _ _ => deserWord_eq_some_iff.mp, ?_⟩
  intro b0 b1 b2 b3 b4 b5 b6 b7
  exact ⟨⟨wordOfBytes b0 b1 b2 b3 b4 b5 b6 b7, rfl, toNat_wordOfBytes ..⟩,
    ⟨wordOfBytes b7 b6 b5 b4 b3 b2 b1 b0, rfl, toNat_wordOfBytes ..⟩⟩

end Sys2Proof
end

section
/-! What the decoder refuses, and by which name (30_encoding.md R84, R88; 40_encoder.md R113). -/

namespace Sys2Proof

/-! ## Unassigned codes -/

/-- The opcode map has a row for every code up to 31 (30_encoding.md R83). -/
theorem decodeFields_assigned {f : CweFields} (assigned : f.code.toNat ≤ 31) :
    ∃ i, decodeFields f = .ok i := by
  unfold decodeFields
  interval_cases f.code.toNat <;> exact ⟨_, rfl⟩

/-- What the decoder answers on a word: a command, or the unassigned code by name. -/
theorem decodeWord_cases (w : Word64) :
    ((cweDecode w).code.toNat ≤ 31 ∧ ∃ i, decodeWord w = .ok i) ∨
    (31 < (cweDecode w).code.toNat ∧ decodeWord w = .error (.unassignedCode (cweDecode w).code)) :=
  (le_or_gt (cweDecode w).code.toNat 31).imp
    (fun assigned => ⟨assigned, decodeFields_assigned assigned⟩)
    (fun unassigned => ⟨unassigned, decodeFields_unassigned _ unassigned⟩)

theorem decodeWord_ok_iff (w : Word64) :
    (∃ i, decodeWord w = .ok i) ↔ (cweDecode w).code.toNat ≤ 31 := by
  rcases decodeWord_cases w with ⟨assigned, decoded⟩ | ⟨unassigned, refused⟩
  · exact ⟨fun _ => assigned, fun _ => decoded⟩
  · simp only [refused, reduceCtorEq, exists_false, false_iff]
    omega

theorem wordClass_eq_assigned_iff (w : Word64) :
    wordClass w = .assigned (cweDecode w).code ↔ (cweDecode w).code.toNat ≤ 31 := by
  simp [wordClass]

theorem wordClass_eq_unassigned_iff (w : Word64) :
    wordClass w = .unassigned ↔ 31 < (cweDecode w).code.toNat := by
  simp [wordClass]

/-! ## Short words -/

/-- A receiver cuts a word off every eight bytes, and off no fewer (30_encoding.md R88). -/
theorem deserWord_eq_none_iff {order : ByteOrder} {bytes : List Byte} :
    deserWord order bytes = none ↔ bytes.length < 8 := by
  rcases bytes with _ | ⟨_, _ | ⟨_, _ | ⟨_, _ | ⟨_, _ | ⟨_, _ | ⟨_, _ | ⟨_, _ | ⟨_, rest⟩⟩⟩⟩⟩⟩⟩⟩
  case cons.cons.cons.cons.cons.cons.cons.cons => cases order <;> simp [deserWord]
  all_goals simp [deserWord]

/-- The name for a short word is given to nothing else: a word cut off whole is a command or has an
unassigned code. -/
theorem decodeBytes_eq_shortWord_iff {order : ByteOrder} {bytes : List Byte} :
    decodeBytes order bytes = .error .shortWord ↔ deserWord order bytes = none := by
  unfold decodeBytes
  split
  · next short => simp [short]
  · next w _ word =>
    rw [word]
    rcases decodeWord_cases w with ⟨_, i, decoded⟩ | ⟨_, refused⟩
    · simp [decoded]
    · simp [refused]

/-- Settles O10: assigned and decoded are both `code ≤ 31`, and a short word is one that is not cut off. -/
theorem decoderRefusesExactlyTheUnassigned : Obligations.DecoderRefusesExactlyTheUnassigned := by
  refine ⟨fun w => ?assigned, fun w unassigned => ?unassigned, fun order bytes => ?short⟩
  case assigned => rw [decodeWord_ok_iff, wordClass_eq_assigned_iff]
  case unassigned =>
    have beyond := (wordClass_eq_unassigned_iff w).mp unassigned
    exact ⟨beyond, decodeFields_unassigned _ beyond⟩
  case short => rw [decodeBytes_eq_shortWord_iff, deserWord_eq_none_iff]

end Sys2Proof
end

section
/-! A command at its port, in every state (40_encoder.md R100, R110; 10_state.md R27). -/

namespace Sys2Proof.Machine

/-- What a command does: it appends its word in `IDLE`, and elsewhere its word is shown only. -/
theorem exec_cases {i : Instr} {s t : State} (h : exec i s = .next t) :
    (s.st = .idle ∧ t = s.txWord (encode i)) ∨ (s.st ≠ .idle ∧ t = s.showWord (encode i)) := by
  rw [exec_eq_cweSend] at h
  have sent := cweSend_cases h
  rwa [cweEncode_toNat] at sent

/-- A command outside `IDLE` waits, its word shown (40_encoder.md R110). -/
theorem exec_wait (i : Instr) (s : State) (notIdle : s.st ≠ .idle) :
    exec i s = .next (s.showWord (encode i)) := by
  rw [exec_eq_cweSend, cweSend_wait _ _ _ _ notIdle, cweEncode_toNat, encode]

/-- Settles O17: both things a command can do write the outputs, and in `IDLE` one word of `TX`. -/
theorem commandsChangeNothingButTheTransmitHistory :
    Obligations.CommandsChangeNothingButTheTransmitHistory := by
  intro i s t h
  rcases exec_cases h with ⟨idle, rfl⟩ | ⟨notIdle, rfl⟩
  · simp [idle]
  · simp [notIdle]

end Sys2Proof.Machine
end

section
/-! The host's turn, for an operation pending and for a part of the call in progress: one rule says which
operation is tried, one that it waits, one that it is run (00_scope.md R11; notes/assumptions/3.md, 32.md). -/

namespace Sys2Proof.Machine

/-! ## Which operation is tried -/

/-- Only a part of a call begun in `HALT` finds its session gone (60_exceptions.md R220). -/
theorem callBroken_of_not_halt {s : State} (op : HostOp) (running : s.st ≠ .halt) :
    callBroken op s = false := by
  have notHalted : s.halted = false := by simpa using mt (halted_iff s).mp running
  rw [callBroken, notHalted, Bool.false_and, Bool.false_and]

/-- With a call in progress the host tries its next part. -/
theorem hostTurn_of_call {s : State} {op : HostOp} {ops : List HostOp} (call : s.call = op :: ops)
    (unbroken : callBroken op s = false) : hostTurn s = tryHostOp op s { s with call := ops } := by
  simp [hostTurn, call, unbroken]

theorem step_of_pending {s : State} {rest : List Turn} {op : HostOp} {ops : List HostOp}
    (sched : s.sched = .host :: rest) (call : s.call = []) (host : s.host = op :: ops) :
    step s = tryHostOp op (s.took rest) { s.took rest with host := ops } :=
  (step_of_sched_cons sched).trans (hostTurn_of_pending (s := s.took rest) call host)

theorem step_of_call {s : State} {rest : List Turn} {op : HostOp} {ops : List HostOp}
    (sched : s.sched = .host :: rest) (call : s.call = op :: ops) (running : s.st ≠ .halt) :
    step s = tryHostOp op (s.took rest) { s.took rest with call := ops } :=
  (step_of_sched_cons sched).trans
    (hostTurn_of_call (s := s.took rest) call (callBroken_of_not_halt op running))

/-! ## Whether it waits -/

/-- Outside `IDLE` `host_cmd_ready` is low, so a command waits (40_encoder.md R110). -/
theorem hostWaits_send_of_not_idle {s : State} (notIdle : s.st ≠ .idle) (code : Code) (sub : SubIx)
    (operand : Int) : hostWaits (.send code sub operand) s = true := by
  simpa [hostWaits] using mt (hostCmdReady_iff s).mp notIdle

/-- Of the host's operations only a command and the two waits of a caller can be made to wait. -/
theorem hostWaits_of_port_operation {op : HostOp} (s : State)
    (notSend : ∀ code sub operand, op ≠ .send code sub operand) (notBatch : op ≠ .awaitBatch)
    (notFrame : op ≠ .awaitFrame) : hostWaits op s = false := by
  cases op
  case send code sub operand => exact absurd rfl (notSend code sub operand)
  case awaitBatch => exact absurd rfl notBatch
  case awaitFrame => exact absurd rfl notFrame
  all_goals rfl

/-- A command that waits stays where it stands, its word shown (40_encoder.md R100). -/
theorem tryHostOp_send_of_not_idle {s : State} (notIdle : s.st ≠ .idle) (code : Code) (sub : SubIx)
    (operand : Int) (taken : State) :
    tryHostOp (.send code sub operand) s taken = .next (s.showWord (cweEncode code sub operand)) := by
  rw [tryHostOp, if_pos (hostWaits_send_of_not_idle notIdle code sub operand), offerOp]

/-- A word of the table runs as the command it decodes to (notes/assumptions/31.md). -/
theorem sendCommand_of_decoded {code : Code} {sub : SubIx} {operand : Int} {i : Instr}
    (decoded : decodeWord (cweEncode code sub operand) = .ok i) (s : State) :
    sendCommand code sub operand s = exec i s := by
  rw [sendCommand, decoded]

/-- In `IDLE` a command that has been tried is run as the command its word decodes to. -/
theorem tryHostOp_send_of_decoded {s : State} (idle : s.st = .idle) {code : Code} {sub : SubIx}
    {operand : Int} {i : Instr} (decoded : decodeWord (cweEncode code sub operand) = .ok i)
    (taken : State) : tryHostOp (.send code sub operand) s taken = exec i taken := by
  rw [tryHostOp_of_ready (hostWaits_send_of_idle idle code sub operand), runHostOp,
    sendCommand_of_decoded decoded]

/-- Settles O18: a command outside `IDLE`, at its port and as the operation the host's turn tries. -/
theorem commandsWaitOutsideIdle : Obligations.CommandsWaitOutsideIdle := by
  refine ⟨exec_wait, ?_⟩
  rintro s rest ops code sub operand sched notIdle (⟨call, host⟩ | ⟨call, running⟩)
  · rw [step_of_pending sched call host]
    exact tryHostOp_send_of_not_idle (s := s.took rest) notIdle code sub operand _
  · rw [step_of_call sched call running]
    exact tryHostOp_send_of_not_idle (s := s.took rest) notIdle code sub operand _

/-! ## The step runs it -/

/-- An operation at its port is run by the step that finds it first (00_scope.md R11). -/
theorem step_of_strobe {s : State} {rest : List Turn} {op : HostOp} (sched : s.sched = .strobe op :: rest) :
    step s = runHostOp op (s.took rest) :=
  step_of_sched_cons sched

/-- A placed word is the command at the port of the next step (notes/assumptions/4.md). -/
theorem step_withFetchWord_encode (s : State) (i : Instr) :
    step (s.withFetchWord 64 (encode i).toNat) = exec i s.quiet := by
  have word : BitVec.ofNat 64 ((encode i).toNat % 2 ^ 64) = encode i := by
    rw [Nat.mod_eq_of_lt (encode i).isLt, BitVec.ofNat_toNat, BitVec.setWidth_eq]
  have decoded : decodeWord (cweEncode (cweDecode (encode i)).code (cweDecode (encode i)).sub
      ((cweDecode (encode i)).value.toNat : Int)) = .ok i := by
    rw [cweEncode_toNat, cwePack_cweDecode, decodeWord_eq_ok_iff]
  rw [State.withFetchWord, word, step_of_strobe (State.placeCommand_sched s (encode i)), runHostOp,
    sendCommand_of_decoded decoded]
  rfl

/-- Settles O19: the host's turn tries the operation, and in `IDLE`, or with no need to wait, runs it. -/
theorem stepRunsTheDecodedCommand : Obligations.StepRunsTheDecodedCommand := by
  refine ⟨?sent, step_withFetchWord_encode, ?atItsPort⟩
  case sent =>
    intro s rest ops code sub operand i sched idle decoded
    constructor
    · intro call host
      rw [step_of_pending sched call host]
      exact tryHostOp_send_of_decoded (s := s.took rest) idle decoded _
    · intro call
      rw [step_of_call sched call (by simp [idle])]
      exact tryHostOp_send_of_decoded (s := s.took rest) idle decoded _
  case atItsPort =>
    intro s rest ops op sched notSend notBatch notFrame
    have ready := hostWaits_of_port_operation (s.took rest) notSend notBatch notFrame
    constructor
    · intro call host
      rw [step_of_pending sched call host, tryHostOp_of_ready ready, step_of_strobe rfl]
      rfl
    · intro call running
      rw [step_of_call sched call running, tryHostOp_of_ready ready, step_of_strobe rfl]
      rfl

end Sys2Proof.Machine
end

section
/-! A transmit error in `IDLE` (40_encoder.md R111, 60_exceptions.md R220): it fails the command that is
the host's next operation, if there is one. -/

namespace Sys2Proof.Machine

/-! ## The host's next operation -/

theorem nextOp_of_pending {s : State} {op : HostOp} {ops : List HostOp} (call : s.call = [])
    (host : s.host = op :: ops) : s.nextOp = some op := by
  simp only [State.nextOp, call, host, List.head?_cons]

theorem nextOp_of_call {s : State} {op : HostOp} {ops : List HostOp} (call : s.call = op :: ops) :
    s.nextOp = some op := by
  simp only [State.nextOp, call]

theorem dropPending_of_pending {s : State} {op : HostOp} {ops : List HostOp} (call : s.call = [])
    (host : s.host = op :: ops) : s.dropPending = { s with host := ops } := by
  simp only [State.dropPending, call, host, List.tail_cons]

theorem dropPending_of_call {s : State} {op : HostOp} {ops : List HostOp} (call : s.call = op :: ops) :
    s.dropPending = s := by
  simp only [State.dropPending, call]

/-! ## The error -/

theorem dropPending_st (s : State) : s.dropPending.st = s.st := by rw [dropPending_eq]

/-- The command offered in `IDLE` fails with its whole call, and the block halts (40_encoder.md R111). -/
theorem txErrTurn_of_send {s : State} (idle : s.st = .idle) {code : Code} {sub : SubIx} {operand : Int}
    (next : s.nextOp = some (.send code sub operand)) :
    txErrTurn s = ((s.dropPending.showWord (cweEncode code sub operand)).raiseHalt .ioTx).failCall
      .connectionError := by
  have st : (s.dropPending.showWord (cweEncode code sub operand)).st = .idle :=
    (dropPending_st s).trans idle
  simp only [txErrTurn, next, if_pos ((hostCmdReady_iff s).mpr idle), cweSendFailed, if_pos st]

/-- With no command offered the error is noticed in `CMD` only (42_frame_parser.md R188). -/
theorem txErrTurn_of_no_send {s : State}
    (next : ∀ code sub operand, s.nextOp ≠ some (.send code sub operand)) : txErrTurn s = afpTxErr s := by
  unfold txErrTurn
  split
  · next code sub operand offered => exact absurd offered (next code sub operand)
  · rfl

/-- Settles O21: the session's `tx_err` in `IDLE`, with the command pending, part of a call, or absent. -/
theorem failedSendHaltsAndSendsNothing : Obligations.FailedSendHaltsAndSendsNothing := by
  intro s rest sched idle
  have turn : step s = .next (txErrTurn (s.took rest)) := step_of_sched_cons sched
  rw [turn]
  refine ⟨?pending, ?part, ?absent⟩
  case pending =>
    intro ops code sub operand call host
    rw [txErrTurn_of_send (s := s.took rest) idle (nextOp_of_pending call host),
      dropPending_of_pending (s := s.took rest) call host]
    rfl
  case part =>
    intro ops code sub operand call
    rw [txErrTurn_of_send (s := s.took rest) idle (nextOp_of_call call),
      dropPending_of_call (s := s.took rest) call]
    rfl
  case absent =>
    intro next
    have notCmd : (s.took rest).st ≠ .cmd := by simp [State.took, idle]
    rw [txErrTurn_of_no_send (s := s.took rest) next, afpTxErr, if_neg notCmd]

end Sys2Proof.Machine
end

section
/-! What the encoder shows: at its port, and in the first step of a clock cycle (40_encoder.md R100, R103). -/

namespace Sys2Proof.Machine

theorem showPorts_of_valid {p : PortInputs} (s : State) (valid : p.inValid = true) :
    showPorts p s = s.showWord (portWord s.cfg p) := if_pos valid

theorem showPorts_of_invalid {p : PortInputs} (s : State) (invalid : p.inValid = false) :
    showPorts p s = s := by
  simp [showPorts, invalid]

/-- Settles O22: an evaluation at the port, and the cycle's first step with `in_valid` low and high. -/
theorem encoderShowsTheWordOfItsInputs : Obligations.EncoderShowsTheWordOfItsInputs := by
  intro s rest
  refine ⟨fun code sub operand sched => step_of_strobe sched, fun p sched => ?_⟩
  refine ⟨_, step_of_sched_cons sched, ?_⟩
  cases valid : p.inValid
  case false =>
    rw [showPorts_of_invalid _ valid]
    exact ⟨rfl, rfl, rfl, nofun⟩
  case true =>
    rw [showPorts_of_valid _ valid]
    exact ⟨rfl, rfl, rfl, fun _ => ⟨_, rfl, rfl⟩⟩

end Sys2Proof.Machine
end

section
/-! A command in `IDLE` (40_encoder.md R101, R110): one rule for every command, and words written out bit
by bit. -/

namespace Sys2Proof.Machine

theorem exec_idle (i : Instr) {s : State} (idle : s.st = .idle) :
    exec i s = .next (s.txWord (encode i)) := by
  rw [exec_eq_cweSend, cweSend_idle _ _ _ _ idle, cweEncode_toNat, encode]

/-- In `IDLE` every command sends the sum of its own three fields (40_encoder.md R101, R110). -/
theorem sends_fields (i : Instr) : Sends i i.code.toNat i.sub.toNat i.value.toNat :=
  fun _ idle => ⟨encode i, toNat_cwePack .., exec_idle i idle⟩

/-- Settles O13: the rule for every command, with the codes of twelve of them. -/
theorem resetReadAndStartCommandsSendTheirWords :
    Obligations.ResetReadAndStartCommandsSendTheirWords := fun _ _ =>
  ⟨sends_fields _, sends_fields _, sends_fields _, sends_fields _, sends_fields _, sends_fields _,
    sends_fields _, sends_fields _, sends_fields _, sends_fields _, sends_fields _, sends_fields _⟩

/-- Settles O14: the rule for every command, with the codes 4 to 10. -/
theorem settingCommandsSendTheirWords : Obligations.SettingCommandsSendTheirWords := fun _ _ =>
  ⟨sends_fields _, sends_fields _, sends_fields _, sends_fields _, sends_fields _, sends_fields _,
    sends_fields _⟩

/-- Settles O15: the rule for every command, with the codes 13 to 18. -/
theorem triggerCommandsSendTheirWords : Obligations.TriggerCommandsSendTheirWords := fun _ _ =>
  ⟨sends_fields _, sends_fields _, sends_fields _, sends_fields _, sends_fields _, sends_fields _⟩

/-- Settles O16: the rule for every command, with the codes 21 to 26 and 28. -/
theorem generatorCommandsSendTheirWords : Obligations.GeneratorCommandsSendTheirWords := fun _ _ =>
  ⟨sends_fields _, sends_fields _, sends_fields _, sends_fields _, sends_fields _, sends_fields _,
    sends_fields _⟩

/-- Settles O11: four of the words are the encodings of their commands, the fifth has an unassigned code. -/
theorem listedWordsDecodeToTheirCommands : Obligations.ListedWordsDecodeToTheirCommands :=
  ⟨decodeWord_eq_ok_iff.mpr (by decide), decodeWord_eq_ok_iff.mpr (by decide),
    decodeWord_eq_ok_iff.mpr (by decide), decodeWord_eq_ok_iff.mpr (by decide),
    decodeFields_unassigned _ (by decide)⟩

end Sys2Proof.Machine
end

section
/-! The calls of the caller that take several operations of the host (41_commands.md R152, R153): each is
checked as a whole, and becomes the call in progress or reports its error. -/

namespace Sys2Proof.Machine

/-! ## `SET_SPECTRUM` -/

theorem weightOk_iff (weight : Int) : weightOk weight = true ↔ 0 ≤ weight ∧ weight < 2 ^ 32 := by
  simp [weightOk]

/-- The check of `SET_SPECTRUM` (41_commands.md R153, 93_implementation_defined.md U18). -/
theorem expandSetSpectrum_eq (weights : List Int) :
    expandSetSpectrum weights =
      if weights.length = 4096 ∧ ∀ weight ∈ weights, 0 ≤ weight ∧ weight < 2 ^ 32 then
        .ok (binCommands 0 weights)
      else .error .invalidArgument := by
  simp only [expandSetSpectrum, Bool.and_eq_true, decide_eq_true_eq, List.all_eq_true, weightOk_iff]

theorem length_binCommands (start : Nat) (weights : List Int) :
    (binCommands start weights).length = weights.length := by
  induction weights generalizing start with
  | nil => rfl
  | cons weight rest ih => simp only [binCommands, List.length_cons, ih]

/-- The bins go out in ascending order of their index, each with its own weight (41_commands.md R153). -/
theorem getElem?_binCommands (start i : Nat) (weights : List Int) :
    (binCommands start weights)[i]? =
      weights[i]?.map fun weight => .send 28 0 (binOperand (start + i) weight) := by
  induction weights generalizing start i with
  | nil => rfl
  | cons weight rest ih =>
    cases i with
    | zero => rfl
    | succ i =>
      have index : start + 1 + i = start + (i + 1) := by omega
      simp only [binCommands, List.getElem?_cons_succ, ih, index]

/-- Settles O58: the check of the whole list, and the place of each bin in the commands it leaves. -/
theorem setSpectrumSends4096BinsInOrder : Obligations.SetSpectrumSends4096BinsInOrder := by
  intro s rest weights sched
  rw [step_of_strobe sched, runHostOp, expandSetSpectrum_eq]
  constructor
  · intro misfit
    rw [if_neg, runExpansion]
    rintro ⟨length, fits⟩
    rcases misfit with short | ⟨weight, mem, wide⟩
    · exact short length
    · have := fits weight mem
      omega
  · intro length fits
    rw [if_pos ⟨length, fits⟩]
    refine ⟨binCommands 0 weights, rfl, (length_binCommands 0 weights).trans length, ?_⟩
    intro i weight bin
    rw [getElem?_binCommands, bin, Nat.zero_add]
    rfl

/-! ## `SET_TOTAL_SAMPLES` -/

theorem totalOk_iff (p : Params) (view : CallerView) (total : Nat) :
    totalOk p view total = true ↔
      total ≤ p.maximumSamples ∧ ∀ pre, view.preTrigger = some pre → pre ≤ total := by
  cases isSet : view.preTrigger <;> simp [totalOk, isSet]

/-- The check of `SET_TOTAL_SAMPLES`, on the number as it was given (41_commands.md R138, R152). -/
theorem totalCheck_iff (p : Params) (view : CallerView) (n : Int) :
    (decide (0 ≤ n) && totalOk p view n.toNat) = true ↔
      0 ≤ n ∧ n ≤ p.maximumSamples ∧ ∀ pre : Nat, view.preTrigger = some pre → pre ≤ n := by
  rw [Bool.and_eq_true, decide_eq_true_eq, totalOk_iff]
  refine and_congr_right fun nonneg => ?_
  lift n to Nat using nonneg
  simp

theorem totalOperand_toNat (p : Params) {n : Int} (nonneg : 0 ≤ n) :
    totalOperand p n.toNat = n + p.paddingCount := by
  simp [totalOperand, nonneg]

/-- Settles O57: the check, then the two operations; a legal record leaves room for the sum (00_scope.md
R9). -/
theorem setTotalSamplesConfiguresThenSends : Obligations.SetTotalSamplesConfiguresThenSends := by
  intro s rest view n sched
  have turn : step s = .next (runExpansion (expandSetTotalSamples s.cfg view n) (s.took rest)) :=
    step_of_strobe sched
  rw [turn, expandSetTotalSamples]
  refine ⟨?refused, ?accepted, ?untruncated⟩
  case refused =>
    intro misfit
    rw [if_neg, runExpansion]
    rw [totalCheck_iff]
    rintro ⟨nonneg, inRange, covers⟩
    rcases misfit with neg | beyond | ⟨pre, isSet, below⟩
    · omega
    · omega
    · have := covers pre isSet
      omega
  case accepted =>
    intro nonneg inRange covers
    rw [if_pos ((totalCheck_iff ..).mpr ⟨nonneg, inRange, covers⟩), totalOperand_toNat _ nonneg]
    rfl
  case untruncated =>
    intro legal nonneg inRange
    have fits : s.cfg.maximumSamples + s.cfg.paddingCount < 2 ^ 52 := by
      simp only [Params.legal, Params.sumFits, Bool.and_eq_true, decide_eq_true_eq] at legal
      omega
    have code : (18 : Code).toNat = 18 := rfl
    have sub : (0 : SubIx).toNat = 0 := rfl
    rw [encodedWordIsTheSumOfItsFields.1]
    omega

end Sys2Proof.Machine
end

section
/-! The acquisition calls and their waits (41_commands.md R154, R155): how a wait goes on and ends, and how
a halt ends a call (60_exceptions.md R220). -/

namespace Sys2Proof.Machine

/-! ## The part of a call the host's turn finds -/

/-- In `HALT` a part of a call that is no wait finds the session gone (60_exceptions.md R220). -/
theorem callBroken_of_halt {s : State} {op : HostOp} (halt : s.st = .halt) (notBatch : op ≠ .awaitBatch)
    (notFrame : op ≠ .awaitFrame) : callBroken op s = true := by
  simp [callBroken, (halted_iff s).mpr halt, notBatch, notFrame]

/-- A wait reports a halt itself (60_exceptions.md R220). -/
theorem callBroken_awaitBatch (s : State) : callBroken .awaitBatch s = false := by simp [callBroken]

theorem callBroken_awaitFrame (s : State) : callBroken .awaitFrame s = false := by simp [callBroken]

theorem step_of_broken_call {s : State} {rest : List Turn} {op : HostOp} {ops : List HostOp}
    (sched : s.sched = .host :: rest) (call : s.call = op :: ops) (broken : callBroken op s = true) :
    step s = .next ((s.took rest).failCall .connectionError) := by
  have turn : hostTurn (s.took rest) = .next ((s.took rest).failCall .connectionError) := by
    have took : (s.took rest).call = op :: ops := call
    have tookBroken : callBroken op (s.took rest) = true := broken
    simp only [hostTurn, took, if_pos tookBroken]
  exact (step_of_sched_cons sched).trans turn

theorem step_of_unbroken_call {s : State} {rest : List Turn} {op : HostOp} {ops : List HostOp}
    (sched : s.sched = .host :: rest) (call : s.call = op :: ops) (unbroken : callBroken op s = false) :
    step s = tryHostOp op (s.took rest) { s.took rest with call := ops } :=
  (step_of_sched_cons sched).trans (hostTurn_of_call (s := s.took rest) call unbroken)

/-! ## Waits -/

/-- A wait for a batch goes on while the parser is busy, and stays where it stands (41_commands.md R154). -/
theorem step_of_going_awaitBatch {s : State} {rest : List Turn} {ops : List HostOp}
    (sched : s.sched = .host :: rest) (call : s.call = .awaitBatch :: ops) (busy : s.busy = true) :
    step s = .next (s.took rest) :=
  (step_of_unbroken_call sched call (callBroken_awaitBatch s)).trans (if_pos busy)

theorem step_of_ended_awaitBatch {s : State} {rest : List Turn} {ops : List HostOp}
    (sched : s.sched = .host :: rest) (call : s.call = .awaitBatch :: ops) (free : s.busy = false) :
    step s = .next (endAwaitBatch { s.took rest with call := ops }) :=
  (step_of_unbroken_call sched call (callBroken_awaitBatch s)).trans
    (tryHostOp_of_ready (op := .awaitBatch) (s := s.took rest) free _)

/-- A wait for a frame waits for nothing else than the start command and the frame (41_commands.md R155). -/
theorem hostWaits_awaitFrame_iff (s : State) :
    hostWaits .awaitFrame s = true ↔ s.st = .cmd ∨ s.st = .rx := by
  simp [hostWaits]

theorem step_of_going_awaitFrame {s : State} {rest : List Turn} {ops : List HostOp}
    (sched : s.sched = .host :: rest) (call : s.call = .awaitFrame :: ops)
    (running : s.st = .cmd ∨ s.st = .rx) : step s = .next (s.took rest) :=
  (step_of_unbroken_call sched call (callBroken_awaitFrame s)).trans
    (if_pos ((hostWaits_awaitFrame_iff s).mpr running))

theorem step_of_ended_awaitFrame {s : State} {rest : List Turn} {ops : List HostOp}
    (sched : s.sched = .host :: rest) (call : s.call = .awaitFrame :: ops)
    (resting : ¬(s.st = .cmd ∨ s.st = .rx)) :
    step s = .next (endAwaitFrame { s.took rest with call := ops }) :=
  (step_of_unbroken_call sched call (callBroken_awaitFrame s)).trans
    (tryHostOp_of_ready (op := .awaitFrame) (s := s.took rest)
      (Bool.eq_false_iff.mpr (mt (hostWaits_awaitFrame_iff s).mp resting)) _)

/-- A batch that stands ends its wait well (41_commands.md R154). -/
theorem endAwaitBatch_of_batchOk {s : State} (finished : s.batchOk = true) : endAwaitBatch s = s := by
  unfold endAwaitBatch
  cases s.st <;> simp [finished]

theorem endAwaitBatch_of_halt {s : State} (halt : s.st = .halt) (unfinished : s.batchOk = false) :
    endAwaitBatch s = s.failCall .connectionError := by
  simp [endAwaitBatch, halt, unfinished]

theorem endAwaitFrame_of_wait {s : State} (wait : s.st = .wait) : endAwaitFrame s = s := by
  simp only [endAwaitFrame, wait]

theorem endAwaitFrame_of_halt {s : State} (halt : s.st = .halt) :
    endAwaitFrame s = s.failCall .connectionError := by
  simp only [endAwaitFrame, halt]

/-! ## The pulls of a stream -/

theorem length_pullCommands (frames : Nat) : (pullCommands frames).length = 2 * frames := by
  induction frames with
  | zero => rfl
  | succ frames ih => simp only [pullCommands, List.length_cons, ih]; omega

/-- Each frame of a stream is one pull, then one wait (41_commands.md R155). -/
theorem getElem?_pullCommands {k frames : Nat} (hk : k < frames) :
    (pullCommands frames)[2 * k]? = some .pull ∧ (pullCommands frames)[2 * k + 1]? = some .awaitFrame := by
  induction frames generalizing k with
  | zero => omega
  | succ frames ih =>
    cases k with
    | zero => exact ⟨rfl, rfl⟩
    | succ k => exact ih (by omega)

/-- Settles O59: the calls by their expansions, and the host's turn for each part of a call in progress. -/
theorem acquisitionCallsStartThenWait : Obligations.AcquisitionCallsStartThenWait := by
  intro s rest
  refine ⟨?batch, ?stream, ?awaitBatch, ?awaitFrame, ?otherPart⟩
  case batch => exact fun _ sched => step_of_strobe sched
  case stream =>
    exact fun _ frames sched => ⟨pullCommands frames, step_of_strobe sched, length_pullCommands frames,
      fun _ hk => getElem?_pullCommands hk⟩
  case awaitBatch =>
    intro ops sched call
    refine ⟨?goesOn, ?finished, ?broken⟩
    case goesOn => exact fun running => step_of_going_awaitBatch sched call ((busy_iff s).mpr running)
    case finished =>
      intro idle finished
      exact (step_of_ended_awaitBatch sched call (by simp [State.busy, idle])).trans
        (congrArg _ (endAwaitBatch_of_batchOk finished))
    case broken =>
      intro halt unfinished
      exact (step_of_ended_awaitBatch sched call (by simp [State.busy, halt])).trans
        (congrArg _ (endAwaitBatch_of_halt halt unfinished))
  case awaitFrame =>
    intro ops sched call
    refine ⟨?goesOn, ?finished, ?broken⟩
    case goesOn => exact fun running => step_of_going_awaitFrame sched call running
    case finished =>
      intro wait
      exact (step_of_ended_awaitFrame sched call (by simp [wait])).trans
        (congrArg _ (endAwaitFrame_of_wait wait))
    case broken =>
      intro halt
      exact (step_of_ended_awaitFrame sched call (by simp [halt])).trans
        (congrArg _ (endAwaitFrame_of_halt halt))
  case otherPart =>
    intro op ops sched call notBatch notFrame halt
    exact step_of_broken_call sched call (callBroken_of_halt halt notBatch notFrame)

end Sys2Proof.Machine
end

section
/-! The caller's calls for one command (41_commands.md R120 to R150, R157, R159): each checks its input as it
is given, and then sends the word of its own command or reports an invalid argument. -/

namespace Sys2Proof.Machine

/-! ## The setter contract -/

theorem sendIf_of_pass {ok : Bool} (pass : ok = true) (code : Code) (sub : SubIx) (operand : Int) :
    sendIf ok code sub operand = .ok [.send code sub operand] := if_pos pass

theorem sendIf_of_fail {ok : Bool} (fail : ¬ok = true) (code : Code) (sub : SubIx) (operand : Int) :
    sendIf ok code sub operand = .error .invalidArgument := if_neg fail

section Step

variable {s : State} {rest : List Turn} {view : CallerView} {c : CallerCommand}
  (sched : s.sched = .strobe (.setter view c) :: rest)

include sched

theorem step_of_setter : step s = .next (runExpansion (expandSetter s.cfg view c) (s.took rest)) :=
  step_of_strobe sched

theorem beginsSend_of_expandSetter {code : Code} {sub : SubIx} {operand : Int}
    (expands : expandSetter s.cfg view c = .ok [.send code sub operand]) :
    BeginsSend s rest code sub operand := by
  rw [BeginsSend, step_of_setter sched, expands]
  rfl

theorem refusesCall_of_expandSetter (expands : expandSetter s.cfg view c = .error .invalidArgument) :
    RefusesCall s rest := by
  rw [RefusesCall, step_of_setter sched, expands, runExpansion]

/-- A setter whose check passes sends its command (41_commands.md R159). -/
theorem beginsSend_of_pass {ok : Bool} {code : Code} {sub : SubIx} {operand : Int}
    (checks : expandSetter s.cfg view c = sendIf ok code sub operand) (pass : ok = true) :
    BeginsSend s rest code sub operand :=
  beginsSend_of_expandSetter sched (checks.trans (sendIf_of_pass pass ..))

/-- A setter whose check fails sends nothing (41_commands.md R159). -/
theorem refusesCall_of_fail {ok : Bool} {code : Code} {sub : SubIx} {operand : Int}
    (checks : expandSetter s.cfg view c = sendIf ok code sub operand) (fail : ¬ok = true) :
    RefusesCall s rest :=
  refusesCall_of_expandSetter sched (checks.trans (sendIf_of_fail fail ..))

end Step

/-! ## The checks, on the number as it is given -/

theorem isBit_iff (v : Int) : isBit v = true ↔ 0 ≤ v ∧ v ≤ 1 := by
  simp only [isBit, Bool.or_eq_true, beq_iff_eq]
  omega

/-- The check of the negator (41_commands.md R125). -/
theorem negatorCheck_iff (channel v : Int) :
    (isBit channel && isBit v) = true ↔ 0 ≤ channel ∧ channel ≤ 1 ∧ 0 ≤ v ∧ v ≤ 1 := by
  rw [Bool.and_eq_true, isBit_iff, isBit_iff, and_assoc]

/-- The check of an operand whose domain the source names (notes/assumptions/22.md). -/
theorem domainOk_iff (code : Code) (v : Int) :
    domainOk code v = true ↔ (-2 ^ 51 ≤ v ∧ v < 2 ^ 52) ∧ Config.callerDomain code v = true := by
  simp only [domainOk, Bool.and_eq_true, decide_eq_true_eq]

/-- The check of the trigger level (41_commands.md R136). -/
theorem levelCheck_iff (level : Int) :
    (decide (-4096 ≤ level) && decide (level ≤ 4095)) = true ↔ -4096 ≤ level ∧ level ≤ 4095 := by
  rw [Bool.and_eq_true, decide_eq_true_eq, decide_eq_true_eq]

theorem preTriggerOk_iff (p : Params) (view : CallerView) (pre : Nat) :
    preTriggerOk p view pre = true ↔
      pre ≤ p.maximumSamples ∧ ∀ total, view.totalSamples = some total → pre ≤ total := by
  cases isSet : view.totalSamples <;> simp [preTriggerOk, isSet]

/-- The check of the pre-trigger count (41_commands.md R137). -/
theorem preTriggerCheck_iff (p : Params) (view : CallerView) (n : Int) :
    (decide (0 ≤ n) && preTriggerOk p view n.toNat) = true ↔
      0 ≤ n ∧ n ≤ p.maximumSamples ∧ ∀ total : Nat, view.totalSamples = some total → n ≤ total := by
  rw [Bool.and_eq_true, decide_eq_true_eq, preTriggerOk_iff]
  refine and_congr_right fun nonneg => ?_
  lift n to Nat using nonneg
  simp

/-! ## What passes a check is well behaved as a command -/

theorem negatorOk_of_check {channel v : Int} (bits : (isBit channel && isBit v) = true) :
    negatorOk (BitVec.ofInt 4 channel) (valueField v) = true := by
  simp only [isBit, Bool.and_eq_true, Bool.or_eq_true, beq_iff_eq] at bits
  obtain ⟨rfl | rfl, rfl | rfl⟩ := bits <;> decide

theorem levelOk_of_check {level : Int}
    (inRange : (decide (-4096 ≤ level) && decide (level ≤ 4095)) = true) :
    levelOk (valueField level) = true := by
  rw [levelCheck_iff] at inRange
  simp only [levelOk, toInt_valueField, Bool.and_eq_true, decide_eq_true_eq]
  split <;> omega

/-- A count that the value field does not hold is reduced to a smaller one, which passes the check too. -/
theorem preTriggerOk_of_check {p : Params} {view : CallerView} {n : Int}
    (inRange : (decide (0 ≤ n) && preTriggerOk p view n.toNat) = true) :
    preTriggerOk p view (valueField n).toNat = true := by
  obtain ⟨nonneg, below, covered⟩ := (preTriggerCheck_iff ..).mp inRange
  have field := toNat_valueField n
  refine (preTriggerOk_iff ..).mpr ⟨by omega, fun total isSet => ?_⟩
  have := covered total isSet
  omega

theorem sourceOk_sourceNumber (p : Params) (m : TriggerSource) : sourceOk p (sourceNumber p m) = true := by
  cases m <;> simp [sourceOk, sourceNumber]

theorem slopeOk_slopeNumber (p : Params) (m : TriggerSlope) : slopeOk p (slopeNumber p m) = true := by
  cases m <;> simp [slopeOk, slopeNumber]

theorem modeOk_modeNumber (p : Params) (m : TriggerMode) : modeOk p (modeNumber p m) = true := by
  cases m <;> simp [modeOk, modeNumber]

/-- The expansion of a call refuses it, or sends one command, and that one well behaved. -/
def SendsWellBehaved (p : Params) (view : CallerView) (e : Except CallerError (List HostOp)) : Prop :=
  e = .error .invalidArgument ∨
    ∃ (i : Instr) (operand : Int), i.wellBehaved p view = true ∧ i.value = valueField operand ∧
      e = .ok [.send i.code i.sub operand]

theorem sendsWellBehaved_sendIf {p : Params} {view : CallerView} {ok : Bool} {operand : Int} (i : Instr)
    (value : i.value = valueField operand) (good : ok = true → i.wellBehaved p view = true) :
    SendsWellBehaved p view (sendIf ok i.code i.sub operand) := by
  by_cases pass : ok = true
  · exact .inr ⟨i, operand, good pass, value, sendIf_of_pass pass ..⟩
  · exact .inl (sendIf_of_fail pass ..)

/-- Every call keeps the caller's duties of R157, command by command. -/
theorem sendsWellBehaved_expandSetter (p : Params) (view : CallerView) :
    ∀ c : CallerCommand, SendsWellBehaved p view (expandSetter p view c)
  | .rstHist => sendsWellBehaved_sendIf (.rstHist 0 0) rfl fun _ => rfl
  | .rstTimer => sendsWellBehaved_sendIf (.rstTimer 0 0) rfl fun _ => rfl
  | .rstOsc => sendsWellBehaved_sendIf (.rstOsc 0 0) rfl fun _ => rfl
  | .rstGen => sendsWellBehaved_sendIf (.rstGen 0 0) rfl fun _ => rfl
  | .setRate v => sendsWellBehaved_sendIf (.setRate 0 (valueField v)) rfl fieldOk_of_domainOk
  | .setNeg channel v =>
    sendsWellBehaved_sendIf (.setNeg (BitVec.ofInt 4 channel) (valueField v)) rfl negatorOk_of_check
  | .setPhaDelay v => sendsWellBehaved_sendIf (.setPhaDelay 0 (valueField v)) rfl fun _ => rfl
  | .setPhaMin v => sendsWellBehaved_sendIf (.setPhaMin 0 (valueField v)) rfl fun _ => rfl
  | .setPhaMax v => sendsWellBehaved_sendIf (.setPhaMax 0 (valueField v)) rfl fun _ => rfl
  | .setTimer v => sendsWellBehaved_sendIf (.setTimer 0 (valueField v)) rfl fun _ => rfl
  | .setTimerMode v => sendsWellBehaved_sendIf (.setTimerMode 0 (valueField v)) rfl fun _ => rfl
  | .rdStatus => sendsWellBehaved_sendIf (.rdStatus 0 0) rfl fun _ => rfl
  | .rdHist => sendsWellBehaved_sendIf (.rdHist 0 0) rfl fun _ => rfl
  | .setTrgSrc none => .inl rfl
  | .setTrgSrc (some m) =>
    sendsWellBehaved_sendIf (.setTrgSrc 0 (sourceNumber p m)) (valueField_toNat _).symm
      fun _ => sourceOk_sourceNumber p m
  | .setTrgSlope none => .inl rfl
  | .setTrgSlope (some m) =>
    sendsWellBehaved_sendIf (.setTrgSlope 0 (slopeNumber p m)) (valueField_toNat _).symm
      fun _ => slopeOk_slopeNumber p m
  | .setTrgMode none => .inl rfl
  | .setTrgMode (some m) =>
    sendsWellBehaved_sendIf (.setTrgMode 0 (modeNumber p m)) (valueField_toNat _).symm
      fun _ => modeOk_modeNumber p m
  | .setTrgLevel v => sendsWellBehaved_sendIf (.setTrgLevel 0 (valueField v)) rfl levelOk_of_check
  | .setPre n => sendsWellBehaved_sendIf (.setPre 0 (valueField n)) rfl preTriggerOk_of_check
  | .startOsc => sendsWellBehaved_sendIf (.startOsc 0 0) rfl fun _ => rfl
  | .rdOsc => sendsWellBehaved_sendIf (.rdOsc 0 0) rfl fun _ => rfl
  | .setFall v => sendsWellBehaved_sendIf (.setFall 0 (valueField v)) rfl fieldOk_of_domainOk
  | .setRise v => sendsWellBehaved_sendIf (.setRise 0 (valueField v)) rfl fieldOk_of_domainOk
  | .setLower v => sendsWellBehaved_sendIf (.setLower 0 (valueField v)) rfl fun _ => rfl
  | .setUpper v => sendsWellBehaved_sendIf (.setUpper 0 (valueField v)) rfl fun _ => rfl
  | .setGenRate v => sendsWellBehaved_sendIf (.setGenRate 0 (valueField v)) rfl fieldOk_of_domainOk
  | .setDist v => sendsWellBehaved_sendIf (.setDist 0 (valueField v)) rfl fieldOk_of_domainOk
  | .rstSpec => sendsWellBehaved_sendIf (.rstSpec 0 0) rfl fun _ => rfl
  | .startGen => sendsWellBehaved_sendIf (.startGen 0 0) rfl fun _ => rfl
  | .stopGen => sendsWellBehaved_sendIf (.stopGen 0 0) rfl fun _ => rfl

/-! ## Which command each call sends -/

/-- The calls without an operand, each with its code. -/
def operandlessCalls : List (CallerCommand × Code) :=
  [(.rstHist, 0), (.rstTimer, 1), (.rstOsc, 2), (.rstGen, 3), (.rdStatus, 11), (.rdHist, 12),
    (.startOsc, 19), (.rdOsc, 20), (.rstSpec, 27), (.startGen, 29), (.stopGen, 30)]

/-- The calls that take any integer, each with its code. -/
def uncheckedCalls (v : Int) : List (CallerCommand × Code) :=
  [(.setPhaDelay v, 6), (.setPhaMin v, 7), (.setPhaMax v, 8), (.setTimer v, 9), (.setTimerMode v, 10),
    (.setLower v, 23), (.setUpper v, 24)]

/-- The calls whose domain the source names or leaves open, each with its code. -/
def domainCalls (v : Int) : List (CallerCommand × Code) :=
  [(.setRate v, 4), (.setFall v, 21), (.setRise v, 22), (.setGenRate v, 25), (.setDist v, 26)]

/-- The calls that name a trigger member, each with its code and the number of the member. -/
def triggerCalls (t : TriggerNumbers) : List (CallerCommand × Code × Value) :=
  [(.setTrgSrc (some .channel0), 13, t.channel0), (.setTrgSrc (some .channel1), 13, t.channel1),
    (.setTrgSlope (some .rising), 14, t.rising), (.setTrgSlope (some .falling), 14, t.falling),
    (.setTrgMode (some .normal), 15, t.normal), (.setTrgMode (some .automatic), 15, t.automatic)]

theorem expandSetter_of_operandless (p : Params) (view : CallerView) :
    ∀ call ∈ operandlessCalls, expandSetter p view call.1 = sendIf true call.2 0 0 := by
  simp [operandlessCalls, expandSetter]

theorem expandSetter_of_unchecked (p : Params) (view : CallerView) (v : Int) :
    ∀ call ∈ uncheckedCalls v, expandSetter p view call.1 = sendIf true call.2 0 v := by
  simp [uncheckedCalls, expandSetter]

theorem expandSetter_of_domain (p : Params) (view : CallerView) (v : Int) :
    ∀ call ∈ domainCalls v, expandSetter p view call.1 = sendIf (domainOk call.2 v) call.2 0 v := by
  simp [domainCalls, expandSetter]

theorem expandSetter_of_trigger (p : Params) (view : CallerView) :
    ∀ call ∈ triggerCalls p.trigger,
      expandSetter p view call.1 = sendIf true call.2.1 0 (call.2.2.toNat : Int) := by
  simp [triggerCalls, expandSetter, sourceNumber, slopeNumber, modeNumber]

/-- Settles O60: each call by its check, which decides between its one send and the refusal. -/
theorem settersCheckThenSendOrFail : Obligations.SettersCheckThenSendOrFail := by
  intro s rest
  refine ⟨fun view c sched => ⟨?wellBehaved, ?operandless, ?unchecked, ?domain, ?trigger, ?noMember,
    ?level, ?preTrigger, ?negator⟩, fun sched => step_of_strobe sched⟩
  case wellBehaved =>
    rcases sendsWellBehaved_expandSetter s.cfg view c with refused | ⟨i, operand, good, value, sends⟩
    · exact .inl (refusesCall_of_expandSetter sched refused)
    · refine .inr ⟨i.code, i.sub, operand, i, good, ?_, beginsSend_of_expandSetter sched sends⟩
      rw [encode, value, cweEncode]
  case operandless =>
    exact fun code mem =>
      beginsSend_of_pass sched (expandSetter_of_operandless s.cfg view (c, code) mem) rfl
  case unchecked =>
    exact fun v code mem =>
      beginsSend_of_pass sched (expandSetter_of_unchecked s.cfg view v (c, code) mem) rfl
  case domain =>
    intro v code mem
    have checks := expandSetter_of_domain s.cfg view v (c, code) mem
    constructor
    · intro low high
      split
      · next member =>
        exact beginsSend_of_pass sched checks ((domainOk_iff ..).mpr ⟨⟨low, high⟩, member⟩)
      · next outsider =>
        exact refusesCall_of_fail sched checks fun ok => outsider ((domainOk_iff ..).mp ok).2
    · intro outside
      refine refusesCall_of_fail sched checks fun ok => ?_
      have := ((domainOk_iff ..).mp ok).1
      omega
  case trigger =>
    exact fun code number mem =>
      beginsSend_of_pass sched (expandSetter_of_trigger s.cfg view (c, code, number) mem) rfl
  case noMember =>
    rintro (rfl | rfl | rfl) <;> exact refusesCall_of_expandSetter sched rfl
  case level =>
    rintro level rfl
    refine ⟨fun low high => beginsSend_of_pass sched rfl ((levelCheck_iff level).mpr ⟨low, high⟩),
      fun outside => refusesCall_of_fail sched rfl fun ok => ?_⟩
    have := (levelCheck_iff level).mp ok
    omega
  case preTrigger =>
    rintro n rfl
    constructor
    · intro nonneg inRange covered
      exact beginsSend_of_pass sched rfl ((preTriggerCheck_iff ..).mpr ⟨nonneg, inRange, covered⟩)
    · intro outside
      refine refusesCall_of_fail sched rfl fun ok => ?_
      obtain ⟨nonneg, inRange, covered⟩ := (preTriggerCheck_iff ..).mp ok
      rcases outside with neg | beyond | ⟨total, isSet, above⟩
      · omega
      · omega
      · have := covered total isSet
        omega
  case negator =>
    rintro channel v rfl
    constructor
    · intro bits
      refine ⟨BitVec.ofInt 4 channel, ?_, beginsSend_of_pass sched rfl ((negatorCheck_iff ..).mpr bits)⟩
      rw [BitVec.toNat_ofInt]
      omega
    · exact fun outside => refusesCall_of_fail sched rfl (mt (negatorCheck_iff channel v).mp outside)

end Sys2Proof.Machine
end

section
/-! The places of a frame's samples and their cells (42_frame_parser.md R171, R196; 20_memory.md R53). -/

namespace Sys2Proof.Machine

/-- Both bytes of a sample are located alike: `loc` reads `p div 2` only (42_frame_parser.md R181). -/
theorem loc_eq_of_half_eq {p q : Nat} (half : p / 2 = q / 2) (layout : Layout) (n : Nat) :
    loc layout n p = loc layout n q := by
  cases layout <;> simp only [loc, half]

/-- The first byte of a sample is located at that sample, as its second is (42_frame_parser.md R171). -/
theorem loc_off {n c i : Nat} (layout : Layout) (hc : c < 2) (hi : i < n) :
    loc layout n (off layout n c i) = (c, i) := by
  have even := off_mod_two layout n c i
  rw [← loc_off_add_one layout hc hi]
  exact loc_eq_of_half_eq (by omega) layout n

/-- The place of an even offset has that offset (42_frame_parser.md R171). -/
theorem off_loc (layout : Layout) (n j : Nat) :
    off layout n (loc layout n (2 * j)).1 (loc layout n (2 * j)).2 = 2 * j := by
  have half : 2 * j / 2 = j := by omega
  cases layout with
  | interleaved => simp only [loc, off]; omega
  | planar => simp only [loc, off, half, Nat.div_add_mod']

/-- A place of two coordinates has one address, and its parts are read off it by division. -/
theorem eq_and_eq_of_mul_add_eq {m a b x y : Nat} (hx : x < m) (hy : y < m) (h : a * m + x = b * m + y) :
    a = b ∧ x = y := by
  have rest : x = y := by
    simpa [Nat.mul_add_mod', Nat.mod_eq_of_lt, hx, hy] using congrArg (· % m) h
  exact ⟨Nat.eq_of_mul_eq_mul_right (Nat.zero_lt_of_lt hx) (by omega), rest⟩

/-- No two samples share a cell (42_frame_parser.md R196): the address is a number with the digits
`f`, `c` and `i`. -/
theorem cellAddr_inj {n f c i f' c' i' : Nat} (hc : c < 2) (hi : i < n) (hc' : c' < 2) (hi' : i' < n)
    (same : cellAddr n f c i = cellAddr n f' c' i') : f = f' ∧ c = c' ∧ i = i' := by
  obtain ⟨row, index⟩ := eq_and_eq_of_mul_add_eq hi hi' same
  obtain ⟨frame, channel⟩ := eq_and_eq_of_mul_add_eq hc hc' row
  exact ⟨frame, channel, index⟩

/-- Settles O52. -/
theorem placesAndCellsNeverCollide : Obligations.PlacesAndCellsNeverCollide :=
  ⟨fun layout _ _ _ hc hi => ⟨loc_off layout hc hi, loc_off_add_one layout hc hi,
    off_add_one_lt layout hc hi⟩, fun _ _ _ _ _ _ _ hc hi hc' hi' => cellAddr_inj hc hi hc' hi'⟩

end Sys2Proof.Machine
end

section
/-! The parser's operations at their ports (42_frame_parser.md R173 to R179, R187 to R189): which reject
code stands for which state, and what the step with that operation leads to. -/

namespace Sys2Proof.Machine

/-! ## The reject code of each state -/

theorem cfgReject_of_halt (v : Nat) {s : State} (st : s.st = .halt) : cfgReject v s = .eHalted := by
  simp only [cfgReject, st]

theorem cfgReject_of_running (v : Nat) {s : State} (notHalt : s.st ≠ .halt) (notIdle : s.st ≠ .idle) :
    cfgReject v s = .eBusy := by
  cases st : s.st
  case halt => exact absurd st notHalt
  case idle => exact absurd st notIdle
  all_goals simp only [cfgReject, st]

theorem cfgReject_of_out_of_range {v : Nat} {s : State} (st : s.st = .idle)
    (beyond : s.cfg.maximumSamples < v) : cfgReject v s = .eRange := by
  simp only [cfgReject, st, if_pos beyond]

theorem startReject_of_halt {s : State} (st : s.st = .halt) : startReject s = .eHalted := by
  simp only [startReject, st]

theorem startReject_of_running {s : State} (notHalt : s.st ≠ .halt) (notIdle : s.st ≠ .idle) :
    startReject s = .eBusy := by
  cases st : s.st
  case halt => exact absurd st notHalt
  case idle => exact absurd st notIdle
  all_goals simp only [startReject, st]

theorem startReject_of_unconfigured {s : State} (st : s.st = .idle) (invalid : s.nValid = false) :
    startReject s = .eUnconfigured := by
  simp only [startReject, st, if_pos invalid]

theorem startReject_of_empty_frame {s : State} (st : s.st = .idle) (valid : s.nValid = true)
    (empty : s.fbytes = 0) : startReject s = .eEmptyFrame := by
  simp [startReject, st, valid, empty]

theorem fbytes_eq (s : State) : s.fbytes = 4 * s.n + 4 * s.cfg.paddingCount := rfl

/-- `AFP.START_CONT` has the reasons of `AFP.START_BULK` first (42_frame_parser.md R175). -/
theorem startContReject_of_startReject {a : Count} {s : State} {r : RejCode} (reason : startReject s = r)
    (rejected : r ≠ .eNone) : startContReject a s = r := by
  unfold startContReject
  split
  next accepted => exact absurd (reason.symm.trans accepted) rejected
  next => exact reason

theorem startContReject_of_zero_burst {a : Count} {s : State} (accepted : startReject s = .eNone)
    (zero : a = 0) : startContReject a s = .eZeroBurst := by
  simp only [startContReject, accepted, if_pos zero]

theorem pullReject_of_halt {s : State} (st : s.st = .halt) : pullReject s = .eHalted := by
  simp only [pullReject, st]

theorem pullReject_of_not_waiting {s : State} (notHalt : s.st ≠ .halt) (notWait : s.st ≠ .wait) :
    pullReject s = .eNotWaiting := by
  cases st : s.st
  case halt => exact absurd st notHalt
  case wait => exact absurd st notWait
  all_goals simp only [pullReject, st]

/-! ## Rejected operations, and accepted ones -/

theorem afpCfg_of_reject {v : Nat} {s : State} {r : RejCode} (reason : cfgReject v s = r)
    (rejected : r ≠ .eNone) : afpCfg v s = s.reject r := by
  rcases afpCfg_cases v s with ⟨st, inRange, _⟩ | ⟨_, eq⟩
  · exact absurd (reason.symm.trans ((cfgReject_eq_eNone v s).mpr ⟨st, inRange⟩)) rejected
  · rw [eq, reason]

theorem afpCfg_of_accepted {v : Nat} {s : State} (st : s.st = .idle)
    (inRange : v ≤ s.cfg.maximumSamples) :
    afpCfg v s = { s with n := v, nValid := true, batchOk := false } := by
  rcases afpCfg_cases v s with ⟨_, _, eq⟩ | ⟨rejected, _⟩
  · exact eq
  · exact absurd ((cfgReject_eq_eNone v s).mpr ⟨st, inRange⟩) rejected

theorem afpStartBulk_of_reject (a : Count) {s : State} {r : RejCode} (reason : startReject s = r)
    (rejected : r ≠ .eNone) : afpStartBulk a s = s.reject r := by
  rcases afpStartBulk_cases a s with ⟨st, valid, nonempty, _⟩ | ⟨_, eq⟩
  · exact absurd (reason.symm.trans ((startReject_eq_eNone s).mpr ⟨st, valid, nonempty⟩)) rejected
  · rw [eq, reason]

theorem afpStartBulk_of_accepted (a : Count) {s : State} (st : s.st = .idle) (valid : s.nValid = true)
    (nonempty : 0 < s.fbytes) : afpStartBulk a s = s.beginAcquisition .bulk a .cmd := by
  rcases afpStartBulk_cases a s with ⟨_, _, _, eq⟩ | ⟨rejected, _⟩
  · exact eq
  · exact absurd ((startReject_eq_eNone s).mpr ⟨st, valid, nonempty⟩) rejected

theorem afpStartCont_of_reject {a : Count} {s : State} {r : RejCode} (reason : startContReject a s = r)
    (rejected : r ≠ .eNone) : afpStartCont a s = s.reject r := by
  rcases afpStartCont_cases a s with ⟨st, valid, nonempty, burst, _⟩ | ⟨_, eq⟩
  · exact absurd (reason.symm.trans ((startContReject_eq_eNone a s).mpr ⟨⟨st, valid, nonempty⟩, burst⟩))
      rejected
  · rw [eq, reason]

theorem afpStartCont_of_accepted {a : Count} {s : State} (st : s.st = .idle) (valid : s.nValid = true)
    (nonempty : 0 < s.fbytes) (burst : a ≠ 0) :
    afpStartCont a s = s.beginAcquisition .cont a .wait := by
  rcases afpStartCont_cases a s with ⟨_, _, _, _, eq⟩ | ⟨rejected, _⟩
  · exact eq
  · exact absurd ((startContReject_eq_eNone a s).mpr ⟨⟨st, valid, nonempty⟩, burst⟩) rejected

theorem afpPull_of_reject {s : State} {r : RejCode} (reason : pullReject s = r) (rejected : r ≠ .eNone) :
    afpPull s = s.reject r := by
  rcases afpPull_cases s with ⟨st, _, _⟩ | ⟨st, _, _⟩ | ⟨_, eq⟩
  · exact absurd (reason.symm.trans ((pullReject_eq_eNone s).mpr st)) rejected
  · exact absurd (reason.symm.trans ((pullReject_eq_eNone s).mpr st)) rejected
  · rw [eq, reason]

/-- At a burst boundary the pull asks for a start command (42_frame_parser.md R177). -/
theorem afpPull_of_boundary {s : State} (st : s.st = .wait) (boundary : s.evt = 0) :
    afpPull s = { s with st := .cmd } := by
  rcases afpPull_cases s with ⟨_, _, eq⟩ | ⟨_, inside, _⟩ | ⟨rejected, _⟩
  · exact eq
  · exact absurd boundary inside
  · exact absurd ((pullReject_eq_eNone s).mpr st) rejected

/-- Inside a burst the next frame is received at once (42_frame_parser.md R177). -/
theorem afpPull_of_inside {s : State} (st : s.st = .wait) (inside : s.evt ≠ 0) :
    afpPull s = { s with st := .rx, pos := 0 } := by
  rcases afpPull_cases s with ⟨_, boundary, _⟩ | ⟨_, _, eq⟩ | ⟨rejected, _⟩
  · exact absurd boundary inside
  · exact eq
  · exact absurd ((pullReject_eq_eNone s).mpr st) rejected

/-- A bulk amount of 0 is complete with its start command (42_frame_parser.md R176). -/
theorem afpIssue_of_empty_batch {s : State} (st : s.st = .cmd) (empty : s.mode = .bulk ∧ s.amount = 0) :
    afpIssue s = (s.txWord s.startWord).completeBatch := by
  rw [afpIssue, if_pos st, if_pos empty]

theorem afpIssue_of_frames_due {s : State} (st : s.st = .cmd) (due : ¬(s.mode = .bulk ∧ s.amount = 0)) :
    afpIssue s = { s.txWord s.startWord with st := .rx, pos := 0 } := by
  rw [afpIssue, if_pos st, if_neg due]

/-- In `RX` the first byte the session holds is taken (42_frame_parser.md R179). -/
theorem deviceTurn_of_rx {s : State} {b : Byte} {bytes : List Byte} (st : s.st = .rx)
    (head : s.rxq = b :: bytes) : deviceTurn s = afpRxByte b { s with rxq := bytes } := by
  simp only [deviceTurn, head, if_pos ((rxReady_iff s).mpr st)]

/-- Outside `RX` the session keeps its bytes (92_eei_decisions.md D24). -/
theorem deviceTurn_of_not_rx {s : State} (notRx : s.st ≠ .rx) : deviceTurn s = s := by
  unfold deviceTurn
  split
  · rfl
  · rw [if_neg (mt (rxReady_iff s).mp notRx)]

/-- Outside `IDLE` no host command can fail, so `tx_err` is the parser's (42_frame_parser.md R188). -/
theorem txErrTurn_of_not_idle {s : State} (notIdle : s.st ≠ .idle) : txErrTurn s = afpTxErr s := by
  unfold txErrTurn
  split
  · rw [if_neg (mt (hostCmdReady_iff s).mp notIdle)]
  · rfl

/-! ## The steps -/

theorem State.took_st (s : State) (rest : List Turn) : (s.took rest).st = s.st := rfl

/-- Settles O23: the reject code of each state, or the accepted configuration. -/
theorem configurationIsCheckedThenTakesEffect : Obligations.ConfigurationIsCheckedThenTakesEffect := by
  intro s rest v sched
  have turn : step s = .next (afpCfg v (s.took rest)) := step_of_strobe sched
  have reject {r : RejCode} (reason : cfgReject v (s.took rest) = r) (rejected : r ≠ .eNone) :
      step s = .next ((s.took rest).reject r) := by rw [turn, afpCfg_of_reject reason rejected]
  refine ⟨fun st => ?halted, fun notHalt notIdle => ?busy, fun st beyond => ?range,
    fun st inRange => ?accepted⟩
  case halted => exact reject (cfgReject_of_halt v st) nofun
  case busy => exact reject (cfgReject_of_running v notHalt notIdle) nofun
  case range => exact reject (cfgReject_of_out_of_range st beyond) nofun
  case accepted =>
    rw [turn]
    exact ⟨_, congrArg _ (afpCfg_of_accepted (s := s.took rest) st inRange), rfl, rfl, rfl, rfl⟩

/-- Settles O24: the reject code of each state, or the accepted start. -/
theorem bulkStartIsCheckedThenOffersTheCommand : Obligations.BulkStartIsCheckedThenOffersTheCommand := by
  intro s rest a sched
  have turn : step s = .next (afpStartBulk a (s.took rest)) := step_of_strobe sched
  have reject {r : RejCode} (reason : startReject (s.took rest) = r) (rejected : r ≠ .eNone) :
      step s = .next ((s.took rest).reject r) := by rw [turn, afpStartBulk_of_reject a reason rejected]
  refine ⟨fun st => ?halted, fun notHalt notIdle => ?busy, fun st invalid => ?unconfigured,
    fun st valid noSamples noPadding => ?empty, fun st valid nonempty => ?accepted⟩
  case halted => exact reject (startReject_of_halt st) nofun
  case busy => exact reject (startReject_of_running notHalt notIdle) nofun
  case unconfigured => exact reject (startReject_of_unconfigured st invalid) nofun
  case empty =>
    have empty : (s.took rest).fbytes = 0 := by simp [fbytes_eq, State.took, noSamples, noPadding]
    exact reject (startReject_of_empty_frame st valid empty) nofun
  case accepted =>
    rw [turn, afpStartBulk_of_accepted (s := s.took rest) a st valid nonempty]
    exact ⟨_, rfl, rfl, rfl, rfl⟩

/-- Settles O25: the reject code of each state, or the accepted start. -/
theorem continuousStartIsCheckedThenWaits : Obligations.ContinuousStartIsCheckedThenWaits := by
  intro s rest a sched
  have turn : step s = .next (afpStartCont a (s.took rest)) := step_of_strobe sched
  have reject {r : RejCode} (reason : startReject (s.took rest) = r) (rejected : r ≠ .eNone) :
      step s = .next ((s.took rest).reject r) := by
    rw [turn, afpStartCont_of_reject (startContReject_of_startReject reason rejected) rejected]
  refine ⟨fun st => ?halted, fun notHalt notIdle => ?busy, fun st invalid => ?unconfigured,
    fun st valid noSamples noPadding => ?empty, fun st valid nonempty zero => ?zeroBurst,
    fun st valid nonempty burst => ?accepted⟩
  case halted => exact reject (startReject_of_halt st) nofun
  case busy => exact reject (startReject_of_running notHalt notIdle) nofun
  case unconfigured => exact reject (startReject_of_unconfigured st invalid) nofun
  case empty =>
    have empty : (s.took rest).fbytes = 0 := by simp [fbytes_eq, State.took, noSamples, noPadding]
    exact reject (startReject_of_empty_frame st valid empty) nofun
  case zeroBurst =>
    have accepted : startReject (s.took rest) = .eNone :=
      (startReject_eq_eNone _).mpr ⟨st, valid, nonempty⟩
    rw [turn, afpStartCont_of_reject (startContReject_of_zero_burst accepted zero) nofun]
  case accepted =>
    rw [turn, afpStartCont_of_accepted (s := s.took rest) st valid nonempty burst]
    rfl

/-- Settles O26: the sequencer's turn in `CMD` for an empty batch and for frames due, and elsewhere. -/
theorem issueSendsTheStartCommand : Obligations.IssueSendsTheStartCommand := by
  intro s rest sched
  have turn : step s = .next (afpIssue (s.took rest)) := step_of_sched_cons sched
  rw [turn]
  refine ⟨fun st => ⟨s.startWord, toNat_startWord s, fun empty => ?_, fun due => ?_⟩, fun notCmd => ?_⟩
  · rw [afpIssue_of_empty_batch (s := s.took rest) st empty]
    rfl
  · rw [afpIssue_of_frames_due (s := s.took rest) st due]
    rfl
  · rw [afpIssue, State.took_st, if_neg notCmd]

/-- Settles O27. -/
theorem pullAsksForACommandAtABurstBoundary : Obligations.PullAsksForACommandAtABurstBoundary := by
  intro s rest sched
  have turn : step s = .next (afpPull (s.took rest)) := step_of_strobe sched
  rw [turn]
  refine ⟨fun st => ?halted, fun notHalt notWait => ?notWaiting, fun st boundary => ?boundary,
    fun st inside => ?inside⟩
  case halted => rw [afpPull_of_reject (s := s.took rest) (pullReject_of_halt st) nofun]
  case notWaiting =>
    rw [afpPull_of_reject (s := s.took rest) (pullReject_of_not_waiting notHalt notWait) nofun]
  case boundary => rw [afpPull_of_boundary (s := s.took rest) st boundary]
  case inside => rw [afpPull_of_inside (s := s.took rest) st inside]

/-- Settles O28. -/
theorem bytesAreTakenInReceiveOnly : Obligations.BytesAreTakenInReceiveOnly := by
  intro s rest b bytes sched head
  have turn : step s = .next (deviceTurn (s.took rest)) := step_of_sched_cons sched
  rw [turn]
  refine ⟨fun st => ?_, fun notRx => ?_⟩
  · rw [deviceTurn_of_rx (s := s.took rest) st head]
  · rw [deviceTurn_of_not_rx (s := s.took rest) notRx]

/-- Settles O33: the session's two errors, each noticed in one value of `st`. -/
theorem connectionErrorsHaltWhereTheyAreNoticed : Obligations.ConnectionErrorsHaltWhereTheyAreNoticed := by
  intro s rest
  have rxErr (sched : s.sched = .rxErr :: rest) : step s = .next (afpRxErr (s.took rest)) :=
    step_of_sched_cons sched
  have txErr (sched : s.sched = .txErr :: rest) (notIdle : s.st ≠ .idle) :
      step s = .next (afpTxErr (s.took rest)) :=
    (step_of_sched_cons sched).trans
      (congrArg Host.Outcome.next (txErrTurn_of_not_idle (s := s.took rest) notIdle))
  refine ⟨fun sched st => ?_, fun sched notRx => ?_, fun sched st => ?_, fun sched notCmd notIdle => ?_⟩
  · rw [rxErr sched, afpRxErr, State.took_st, if_pos st]
    rfl
  · rw [rxErr sched, afpRxErr, State.took_st, if_neg notRx]
  · rw [txErr sched (by simp [st]), afpTxErr, State.took_st, if_pos st]
    rfl
  · rw [txErr sched notIdle, afpTxErr, State.took_st, if_neg notCmd]

/-- Settles O34. -/
theorem cancelClosesEverySessionButAHaltedOne : Obligations.CancelClosesEverySessionButAHaltedOne := by
  intro s rest sched
  have turn : step s = .next (afpCancel (s.took rest)) := step_of_strobe sched
  rw [turn]
  rcases afpCancel_cases (s.took rest) with ⟨notHalt, eq⟩ | ⟨halt, eq⟩ <;> rw [eq]
  · exact ⟨fun st => absurd st notHalt, fun _ => rfl⟩
  · exact ⟨fun _ => rfl, fun notHalt => absurd halt notHalt⟩

end Sys2Proof.Machine
end

section
/-! One received byte (42_frame_parser.md R180 to R186, R190): what becomes of it by its place in the
frame, and what the last byte of a frame does in each mode. -/

namespace Sys2Proof.Machine

/-! ## Step 1, by the place of the byte -/

/-- The first byte of a sample is held (42_frame_parser.md R182). -/
theorem disposeByte_of_first {s : State} (inside : s.pos < s.sbytes) (first : s.pos % 2 = 0) (b : Byte) :
    s.disposeByte b = { s with hold := b } := by
  rcases disposeByte_cases s b with ⟨_, _, eq⟩ | ⟨_, second, _⟩ | ⟨beyond, _⟩
  · exact eq
  · omega
  · omega

/-- The second byte of a sample completes it (42_frame_parser.md R183). -/
theorem disposeByte_of_second {s : State} (inside : s.pos < s.sbytes) (second : s.pos % 2 = 1) (b : Byte) :
    s.disposeByte b = s.storeSample b := by
  rcases disposeByte_cases s b with ⟨_, first, _⟩ | ⟨_, _, eq⟩ | ⟨beyond, _⟩
  · omega
  · exact eq
  · omega

/-- A padding byte is dropped (42_frame_parser.md R184). -/
theorem disposeByte_of_padding {s : State} (padding : s.sbytes ≤ s.pos) (b : Byte) : s.disposeByte b = s := by
  rcases disposeByte_cases s b with ⟨inside, _, _⟩ | ⟨inside, _, _⟩ | ⟨_, eq⟩
  · omega
  · omega
  · exact eq

/-- `s` with other data: the held byte, `OUT` and the sample write port. -/
def State.withData (s : State) (hold : Byte) (mem : Memory) (sample : Option SampleWrite) : State :=
  { s with hold := hold, mem := mem, out := { s.out with sample := sample } }

/-- Step 1 writes data only, and `hold` with a first byte only. -/
theorem disposeByte_eq (s : State) (b : Byte) : ∃ hold mem sample,
    s.disposeByte b = s.withData hold mem sample ∧ (s.pos % 2 = 1 → hold = s.hold) := by
  rcases disposeByte_cases s b with ⟨_, first, eq⟩ | ⟨_, _, eq⟩ | ⟨_, eq⟩
  · exact ⟨b, s.mem, s.out.sample, eq, fun second => by omega⟩
  · exact ⟨s.hold, _, _, eq, fun _ => rfl⟩
  · exact ⟨s.hold, s.mem, s.out.sample, eq, fun _ => rfl⟩

/-! ## Steps 2 and 3 -/

theorem advance_of_inside {s : State} (inside : s.pos + 1 < s.fbytes) :
    s.advance = { s with pos := s.pos + 1 } := if_pos inside

theorem advance_of_last {s : State} (last : s.fbytes ≤ s.pos + 1) : s.advance = s.closeFrame :=
  if_neg (Nat.not_lt.mpr last)

/-- The last event of a batch completes it (42_frame_parser.md R185). -/
theorem closeFrame_of_last_event {s : State} (mode : s.mode = .bulk) (done : s.evt + 1 = s.amount) :
    s.closeFrame = { s.frameTick with evt := s.evt + 1 }.completeBatch := by
  simp only [State.closeFrame, mode, State.closeBulkFrame, if_pos done]

/-- Before the last event a batch goes on in `RX` (42_frame_parser.md R185). -/
theorem closeFrame_of_more_events {s : State} (mode : s.mode = .bulk) (more : s.evt + 1 ≠ s.amount) :
    s.closeFrame = { s.frameTick with evt := s.evt + 1 } := by
  simp only [State.closeFrame, mode, State.closeBulkFrame, if_neg more]

theorem closeFrame_of_cont {s : State} (mode : s.mode = .cont) : s.closeFrame = s.closeContFrame := by
  simp only [State.closeFrame, mode]

/-! ## The whole step -/

/-- A byte that is not the frame's last one writes no register but `hold` and `pos`. -/
theorem afpRxByte_of_inside {s : State} (st : s.st = .rx) (inside : s.pos + 1 < s.fbytes) (b : Byte) :
    afpRxByte b s = { s.disposeByte b with pos := s.pos + 1 } := by
  rw [afpRxByte_rx b s st, disposeByte_frame]
  exact advance_of_inside (s := { s with hold := _, mem := _, out := _ }) inside

theorem afpRxByte_of_last {s : State} (st : s.st = .rx) (last : s.pos + 1 = s.fbytes) (b : Byte) :
    afpRxByte b s = (s.disposeByte b).closeFrame := by
  rw [afpRxByte_rx b s st, disposeByte_frame]
  exact advance_of_last (s := { s with hold := _, mem := _, out := _ }) last.ge

/-- What step 1 left in `hold` and `OUT`, and the sample it shows, stand after the step. -/
theorem afpRxByte_data {s : State} (st : s.st = .rx) (b : Byte) :
    (afpRxByte b s).hold = (s.disposeByte b).hold ∧ (afpRxByte b s).mem = (s.disposeByte b).mem ∧
    (afpRxByte b s).out.sample = (s.disposeByte b).out.sample := by
  obtain ⟨frame, sample⟩ := advance_frame (s.disposeByte b)
  rw [afpRxByte_rx b s st]
  exact ⟨by rw [frame], by rw [frame], sample⟩

/-- The registers that no received byte writes. -/
theorem afpRxByte_frame (b : Byte) (s : State) :
    afpRxByte b s = { s with
      st := (afpRxByte b s).st, pos := (afpRxByte b s).pos, evt := (afpRxByte b s).evt
      fno := (afpRxByte b s).fno, hold := (afpRxByte b s).hold, batchOk := (afpRxByte b s).batchOk
      mem := (afpRxByte b s).mem, out := (afpRxByte b s).out, frames := (afpRxByte b s).frames } := by
  by_cases st : s.st = .rx
  · rw [afpRxByte_rx b s st, (advance_frame _).1, disposeByte_frame]
  · rw [afpRxByte_other b s st]

/-- A frame ends after a second byte or a padding byte: its length is a multiple of 4
(20_memory.md R58). -/
theorem second_of_last {s : State} (last : s.pos + 1 = s.fbytes) : s.pos % 2 = 1 := by
  rw [fbytes_eq] at last
  omega

/-- The two's complement reading of a stored sample (20_memory.md R56). -/
theorem sampleValue_eq (v : Sample) :
    (v.toNat < 2 ^ 15 → sampleValue v = v.toNat) ∧
    (2 ^ 15 ≤ v.toNat → sampleValue v = (v.toNat : Int) - 2 ^ 16) := by
  rw [sampleValue, BitVec.toInt_eq_toNat_cond]
  omega

/-- Settles O29: the first byte by `disposeByte_of_first`, the second by `disposeByte_of_second`. -/
theorem sampleBytesAreHeldThenStored : Obligations.SampleBytesAreHeldThenStored := by
  refine ⟨fun s b st inside first => ?held, ?stored⟩
  case held =>
    have more : s.pos + 1 < s.fbytes := by
      simp only [State.sbytes] at inside
      rw [fbytes_eq]
      omega
    rw [afpRxByte_of_inside st more, disposeByte_of_first inside first]
  case stored =>
    rintro s t b c i v st inside second place value rfl
    have assembled : v = asmSample s.cfg.sampleOrder s.hold b := by
      rw [value]
      cases s.cfg.sampleOrder <;> rfl
    obtain ⟨channel, index⟩ := loc_lt s.cfg.layout inside
    obtain ⟨hold, mem, sample⟩ := afpRxByte_data st b
    rw [disposeByte_of_second inside second, State.storeSample_hold] at hold
    rw [disposeByte_of_second inside second, State.storeSample_mem, place, ← assembled] at mem
    rw [disposeByte_of_second inside second, State.storeSample_out, place, ← assembled] at sample
    rw [place] at channel index
    rw [mem]
    exact ⟨memReadCell_memWriteCell_self .., fun a => memByte_memWriteCell_ne _ _ a v, sample, hold,
      channel, index, sampleValue_eq v⟩

/-- Settles O30: step 1 leaves the state as it is, so the byte is not read at all. -/
theorem paddingBytesAreDropped : Obligations.PaddingBytesAreDropped := by
  intro s b b' st padding _
  obtain ⟨hold, mem, sample⟩ := afpRxByte_data st b
  rw [disposeByte_of_padding padding] at hold mem sample
  have dropped (byte : Byte) : afpRxByte byte s = s.advance := by
    rw [afpRxByte_rx byte s st, disposeByte_of_padding padding]
  have inside (more : s.pos + 1 < s.fbytes) : afpRxByte b s = { s with pos := s.pos + 1 } := by
    rw [dropped, advance_of_inside more]
  refine ⟨(dropped b).trans (dropped b').symm, hold, mem, sample, ?_, ?_, ?_, ?_, ?_, ?_, inside⟩ <;>
    rw [afpRxByte_frame]

/-- The count of a batch's last frame, which neither `evt` nor `fno` wraps (10_state.md R44 I7, R46). -/
theorem fno_succ_of_last_event {evt amount : Count} {fno width : Nat} (done : evt + 1 = amount)
    (nonzero : amount ≠ 0) (alike : fno = evt.toNat) (fits : amount.toNat < 2 ^ width) :
    (fno + 1) % 2 ^ width = amount.toNat := by
  have count : fno + 1 = amount.toNat := by bv_omega
  rw [count, Nat.mod_eq_of_lt fits]

/-- Settles O31: step 1 writes data only, then `closeFrame` completes the batch or goes on. -/
theorem bulkFrameEnds : Obligations.BulkFrameEnds := by
  rintro s t b st mode last rfl
  obtain ⟨hold, mem, sample, disposed, kept⟩ := disposeByte_eq s b
  obtain rfl := kept (second_of_last last)
  rw [afpRxByte_of_last st last, disposed]
  by_cases done : s.evt + 1 = s.amount
  · rw [closeFrame_of_last_event (s := s.withData s.hold mem sample) mode done]
    exact ⟨rfl, rfl, rfl, rfl, fun _ => ⟨rfl, rfl, rfl⟩, fun more => absurd done more,
      fun _ nonzero alike fits => ⟨done, fno_succ_of_last_event done nonzero alike fits⟩,
      rfl, rfl, rfl, rfl, rfl, rfl, rfl⟩
  · rw [closeFrame_of_more_events (s := s.withData s.hold mem sample) mode done]
    exact ⟨rfl, rfl, rfl, rfl, fun last => absurd last done, fun _ => ⟨st, rfl, rfl⟩,
      fun last => absurd last done, rfl, rfl, rfl, rfl, rfl, rfl, rfl⟩

/-- The running frame has a number below the number of frames after it, whether `fno` has wrapped or
not, so it is handed over with them (notes/assumptions/13.md). -/
theorem covered_closeContFrame {s : State} (mode : s.mode = .cont)
    (frames : s.fno = s.frames % 2 ^ s.cfg.fnoW) : s.closeContFrame.covered s.fno = true := by
  have inRange : s.fno < 2 ^ s.cfg.fnoW := frames ▸ Nat.mod_lt _ (Nat.two_pow_pos _)
  have counted : s.fno < s.frames + 1 := Nat.lt_succ_of_le (frames ▸ Nat.mod_le _ _)
  simp [State.covered, State.handedOver, State.closeContFrame, mode, inRange, counted]

/-- Settles O32: step 1 completes the frame's samples, then `closeContFrame` hands it over. -/
theorem continuousFrameEnds : Obligations.ContinuousFrameEnds := by
  rintro s t b st mode last rfl
  have written (covering : Covering s) (c i : Nat) (hc : c < 2) (hi : i < s.n) :
      (memReadCell (afpRxByte b s).mem (cellAddr s.n s.fno c i)).isSome = true := by
    have received := State.ReceivedWritten.disposeByte (covering.current st) b
    rw [(afpRxByte_data st b).2.1]
    rw [disposeByte_frame] at received ⊢
    exact received.frameWritten last.ge c i hc hi
  obtain ⟨hold, mem, sample, disposed, kept⟩ := disposeByte_eq s b
  obtain rfl := kept (second_of_last last)
  rw [afpRxByte_of_last st last, disposed,
    closeFrame_of_cont (s := s.withData s.hold mem sample) mode] at written ⊢
  exact ⟨rfl, rfl, rfl, rfl, rfl, fun done => if_pos done, fun more => if_neg more, written,
    fun inv => covered_closeContFrame (s := s.withData s.hold mem sample) mode inv.frames,
    rfl, rfl, rfl, rfl, rfl, rfl, rfl, rfl⟩

end Sys2Proof.Machine
end

section
/-! One frame of bytes (42_frame_parser.md R193). A run of `receive` inside a frame moves `pos` on and
stores the samples in the order of arrival, so what a whole frame writes has a closed form (`frameWrites`)
in which each place of the frame occurs once. -/

namespace Sys2Proof.Machine

/-! ## Runs of bytes -/

theorem receive_append (xs ys : List Byte) (s : State) :
    receive (xs ++ ys) s = receive ys (receive xs s) := by
  induction xs generalizing s with
  | nil => rfl
  | cons b rest ih => exact ih _

theorem sampleWrites_append (xs ys : List Byte) (s : State) :
    sampleWrites (xs ++ ys) s = sampleWrites xs s ++ sampleWrites ys (receive xs s) := by
  induction xs generalizing s with
  | nil => rfl
  | cons b rest ih => simp only [List.cons_append, sampleWrites, receive, ih, List.append_assoc]

theorem framesDone_append (xs ys : List Byte) (s : State) :
    framesDone (xs ++ ys) s = framesDone xs s + framesDone ys (receive xs s) := by
  induction xs generalizing s with
  | nil => simp [framesDone, receive]
  | cons b rest ih => simp only [List.cons_append, framesDone, receive, ih, Nat.add_assoc]

/-- `t` runs the acquisition that `s` runs: the length, the parameters, the mode and the amount. -/
structure SameAcquisition (s t : State) : Prop where
  n : t.n = s.n
  cfg : t.cfg = s.cfg
  mode : t.mode = s.mode
  amount : t.amount = s.amount

theorem SameAcquisition.trans {s t u : State} (h : SameAcquisition s t) (k : SameAcquisition t u) :
    SameAcquisition s u :=
  ⟨k.n.trans h.n, k.cfg.trans h.cfg, k.mode.trans h.mode, k.amount.trans h.amount⟩

theorem SameAcquisition.sbytes {s t : State} (h : SameAcquisition s t) : t.sbytes = s.sbytes := by
  simp only [State.sbytes, h.n]

theorem SameAcquisition.fbytes {s t : State} (h : SameAcquisition s t) : t.fbytes = s.fbytes := by
  simp only [fbytes_eq, h.n, h.cfg]

theorem sameAcquisition_afpRxByte (b : Byte) (s : State) : SameAcquisition s (afpRxByte b s) := by
  rw [afpRxByte_frame]
  exact ⟨rfl, rfl, rfl, rfl⟩

theorem sameAcquisition_receive (bytes : List Byte) (s : State) : SameAcquisition s (receive bytes s) := by
  induction bytes generalizing s with
  | nil => exact ⟨rfl, rfl, rfl, rfl⟩
  | cons b rest ih =>
    have quiet : SameAcquisition s s.quiet := ⟨rfl, rfl, rfl, rfl⟩
    exact (quiet.trans (sameAcquisition_afpRxByte b _)).trans (ih _)

/-- The parser sends nothing while it receives. -/
theorem receive_tx (bytes : List Byte) (s : State) : (receive bytes s).tx = s.tx := by
  induction bytes generalizing s with
  | nil => rfl
  | cons b rest ih =>
    rw [receive, ih, afpRxByte_frame]
    rfl

/-! ## Inside a frame -/

/-- The `j`-th sample of a frame to arrive, at the place of its bytes `2j` and `2j + 1`
(42_frame_parser.md R181, R183). -/
def frameWrite (p : Params) (n fno : Nat) (bytes : List Byte) (j : Nat) : SampleWrite :=
  ⟨fno, (loc p.layout n (2 * j)).1, (loc p.layout n (2 * j)).2,
    asmSample p.sampleOrder (bytes[2 * j]?.getD 0) (bytes[2 * j + 1]?.getD 0)⟩

/-- The sample writes of a whole frame; `sampleWrites_frame` says that they are those of a run. -/
def frameWrites (p : Params) (n fno : Nat) (bytes : List Byte) : List SampleWrite :=
  (List.range (2 * n)).map (frameWrite p n fno bytes)

/-- `t` comes `k` bytes into the frame that begins in `s`. -/
structure InFrame (s : State) (bytes : List Byte) (k : Nat) (t : State) : Prop where
  same : SameAcquisition s t
  st : t.st = .rx
  pos : t.pos = k
  evt : t.evt = s.evt
  fno : t.fno = s.fno
  /-- Between the two bytes of a sample the first one is held. -/
  held : k % 2 = 1 → k < s.sbytes → bytes[k - 1]? = some t.hold

section

variable {s t : State} {bytes : List Byte} {k : Nat} (h : InFrame s bytes k t) {b : Byte}

include h

theorem InFrame.disposeByte_first (first : k % 2 = 0) (inSample : k < s.sbytes) :
    t.quiet.disposeByte b = { t.quiet with hold := b } :=
  disposeByte_of_first (s := t.quiet) (by simpa [State.sbytes, h.pos, h.same.n] using inSample)
    (by simpa [h.pos] using first) b

theorem InFrame.disposeByte_second (second : k % 2 = 1) (inSample : k < s.sbytes) :
    t.quiet.disposeByte b = t.quiet.storeSample b :=
  disposeByte_of_second (s := t.quiet) (by simpa [State.sbytes, h.pos, h.same.n] using inSample)
    (by simpa [h.pos] using second) b

theorem InFrame.disposeByte_padding (padding : s.sbytes ≤ k) : t.quiet.disposeByte b = t.quiet :=
  disposeByte_of_padding (s := t.quiet) (by simpa [State.sbytes, h.pos, h.same.n] using padding) b

/-- A byte that is not the frame's last one moves `pos` on. -/
theorem InFrame.afpRxByte_inside (inside : k + 1 < s.fbytes) :
    afpRxByte b t.quiet = { t.quiet.disposeByte b with pos := k + 1 } := by
  have more : t.quiet.pos + 1 < t.quiet.fbytes := by
    rw [State.quiet_pos, h.pos]
    exact h.same.fbytes ▸ inside
  rw [afpRxByte_of_inside (s := t.quiet) h.st more, State.quiet_pos, h.pos]

theorem InFrame.next (inside : k + 1 < s.fbytes) (byte : bytes[k]? = some b) :
    InFrame s bytes (k + 1) (afpRxByte b t.quiet) := by
  rw [h.afpRxByte_inside inside]
  constructor
  case held =>
    intro second inSample
    rw [h.disposeByte_first (by omega) (by omega)]
    exact byte
  all_goals rw [disposeByte_frame]
  case same => exact ⟨h.same.n, h.same.cfg, h.same.mode, h.same.amount⟩
  case st => exact h.st
  case evt => exact h.evt
  case fno => exact h.fno

/-- Inside a frame no frame is handed over. -/
theorem InFrame.frameDone (inside : k + 1 < s.fbytes) :
    (afpRxByte b t.quiet).out.frameDone = none := by
  obtain ⟨_, _, _, disposed, _⟩ := disposeByte_eq t.quiet b
  rw [h.afpRxByte_inside inside, disposed]
  rfl

/-- The second byte of a sample makes its write, every other byte makes none. -/
theorem InFrame.sample (byte : bytes[k]? = some b) :
    (afpRxByte b t.quiet).out.sample =
      if k % 2 = 1 ∧ k < s.sbytes then some (frameWrite s.cfg s.n s.fno bytes (k / 2)) else none := by
  obtain ⟨_, _, sample⟩ := afpRxByte_data (s := t.quiet) h.st b
  rw [sample]
  split
  next completes =>
    obtain ⟨second, inSample⟩ := completes
    have place : loc s.cfg.layout s.n k = loc s.cfg.layout s.n (2 * (k / 2)) :=
      loc_eq_of_half_eq (by omega) _ _
    have firstByte : bytes[2 * (k / 2)]? = some t.hold := by
      rw [← h.held second inSample]
      congr 1
      omega
    have secondByte : bytes[2 * (k / 2) + 1]? = some b := by
      rw [← byte]
      congr 1
      omega
    simp [h.disposeByte_second second inSample, frameWrite, h.pos, h.fno, h.same.n, h.same.cfg, place,
      firstByte, secondByte]
  next other =>
    by_cases inSample : k < s.sbytes
    · rw [h.disposeByte_first (by omega) inSample]
      rfl
    · rw [h.disposeByte_padding (by omega)]
      rfl

end

/-! ## A whole frame -/

section

variable {s : State} {bytes : List Byte} (st : s.st = .rx) (pos : s.pos = 0)
  (length : bytes.length = s.fbytes)

include st pos length

theorem inFrame_receive_take {k : Nat} (hk : k < s.fbytes) :
    InFrame s bytes k (receive (bytes.take k) s) := by
  induction k with
  | zero => exact ⟨⟨rfl, rfl, rfl, rfl⟩, st, pos, rfl, rfl, by omega⟩
  | succ k ih =>
    have byte : k < bytes.length := by omega
    rw [List.take_succ_eq_append_getElem byte, receive_append]
    exact (ih (by omega)).next hk (List.getElem?_eq_getElem byte)

theorem framesDone_take {k : Nat} (hk : k < s.fbytes) : framesDone (bytes.take k) s = 0 := by
  induction k with
  | zero => rfl
  | succ k ih =>
    have byte : k < bytes.length := by omega
    rw [List.take_succ_eq_append_getElem byte, framesDone_append, ih (by omega)]
    simp [framesDone, (inFrame_receive_take st pos length (by omega : k < s.fbytes)).frameDone hk]

/-- The samples complete after `k` bytes are those of the first `k / 2` pairs of bytes, as far as they
lie in the sample region. -/
theorem sampleWrites_take {k : Nat} (hk : k ≤ s.fbytes) :
    sampleWrites (bytes.take k) s =
      (List.range (min (k / 2) (2 * s.n))).map (frameWrite s.cfg s.n s.fno bytes) := by
  induction k with
  | zero => simp [sampleWrites]
  | succ k ih =>
    have byte : k < bytes.length := by omega
    have inFrame := inFrame_receive_take st pos length hk
    rw [List.take_succ_eq_append_getElem byte, sampleWrites_append, ih (by omega), sampleWrites,
      inFrame.sample (List.getElem?_eq_getElem byte), sampleWrites, List.append_nil]
    have region : s.sbytes = 4 * s.n := rfl
    by_cases completes : k % 2 = 1 ∧ k < s.sbytes
    · have before : min (k / 2) (2 * s.n) = k / 2 := by omega
      have after : min ((k + 1) / 2) (2 * s.n) = k / 2 + 1 := by omega
      rw [if_pos completes, before, after, List.range_succ, List.map_append]
      rfl
    · have unchanged : min ((k + 1) / 2) (2 * s.n) = min (k / 2) (2 * s.n) := by omega
      rw [if_neg completes, unchanged]
      exact List.append_nil _

theorem sampleWrites_frame : sampleWrites bytes s = frameWrites s.cfg s.n s.fno bytes := by
  have all := sampleWrites_take st pos length le_rfl
  have count : min (s.fbytes / 2) (2 * s.n) = 2 * s.n := by
    rw [fbytes_eq]
    omega
  rwa [List.take_of_length_le length.le, count] at all

/-- A frame is its last byte, received one byte before the frame's end. -/
theorem receive_frame (nonempty : 0 < s.fbytes) : ∃ t b, InFrame s bytes (s.fbytes - 1) t ∧
    receive bytes s = afpRxByte b t.quiet ∧
    framesDone bytes s = (afpRxByte b t.quiet).out.frameDone.toList.length := by
  have last : s.fbytes - 1 < bytes.length := by omega
  have parts := List.take_succ_eq_append_getElem last
  rw [List.take_of_length_le (by omega)] at parts
  refine ⟨_, bytes[s.fbytes - 1], inFrame_receive_take st pos length (by omega), ?_, ?_⟩
  · conv_lhs => rw [parts, receive_append]
    rfl
  · conv_lhs => rw [parts, framesDone_append, framesDone_take st pos length (by omega)]
    simp [framesDone]

end

theorem InFrame.last {s t : State} {bytes : List Byte} (h : InFrame s bytes (s.fbytes - 1) t)
    (nonempty : 0 < s.fbytes) : t.quiet.pos + 1 = t.quiet.fbytes := by
  have same : t.quiet.fbytes = s.fbytes := h.same.fbytes
  rw [State.quiet_pos, h.pos, same]
  omega

/-- Whatever the mode, the end of a frame is a tick of the frame counter (42_frame_parser.md R185, R186). -/
theorem afpRxByte_last_tick {s : State} (st : s.st = .rx) (last : s.pos + 1 = s.fbytes) (b : Byte) :
    (afpRxByte b s).pos = 0 ∧ (afpRxByte b s).fno = (s.fno + 1) % 2 ^ s.cfg.fnoW := by
  cases mode : s.mode with
  | bulk =>
    obtain ⟨pos, fno, _⟩ := bulkFrameEnds s _ b st mode last rfl
    exact ⟨pos, fno⟩
  | cont =>
    obtain ⟨pos, fno, _⟩ := continuousFrameEnds s _ b st mode last rfl
    exact ⟨pos, fno⟩

/-! ## Each place once -/

theorem length_frameWrites (p : Params) (n fno : Nat) (bytes : List Byte) :
    (frameWrites p n fno bytes).length = 2 * n := by
  rw [frameWrites, List.length_map, List.length_range]

theorem mem_frameWrites {p : Params} {n fno : Nat} {bytes : List Byte} {w : SampleWrite} :
    w ∈ frameWrites p n fno bytes ↔ ∃ j < 2 * n, frameWrite p n fno bytes j = w := by
  simp only [frameWrites, List.mem_map, List.mem_range]

/-- Every write of a frame goes to a cell of the array. -/
theorem frameWrite_lt (p : Params) {n j : Nat} (fno : Nat) (bytes : List Byte) (hj : j < 2 * n) :
    (frameWrite p n fno bytes j).ch < 2 ∧ (frameWrite p n fno bytes j).idx < n :=
  loc_lt p.layout (by omega : 2 * j < 4 * n)

/-- The write to a place is assembled from the two bytes at its offset (42_frame_parser.md R191). -/
theorem frameWrite_off (p : Params) {n c i : Nat} (fno : Nat) (bytes : List Byte) (hc : c < 2)
    (hi : i < n) : frameWrite p n fno bytes (off p.layout n c i / 2) =
      ⟨fno, c, i, asmSample p.sampleOrder (bytes[off p.layout n c i]?.getD 0)
        (bytes[off p.layout n c i + 1]?.getD 0)⟩ := by
  have even := off_mod_two p.layout n c i
  have offset : 2 * (off p.layout n c i / 2) = off p.layout n c i := by omega
  simp only [frameWrite, offset, loc_off p.layout hc hi]

/-- No other write of the frame goes to that place. -/
theorem frameWrite_place_iff {p : Params} {n fno c i : Nat} {bytes : List Byte} (j : Nat) (hc : c < 2)
    (hi : i < n) : (frameWrite p n fno bytes j).ch = c ∧ (frameWrite p n fno bytes j).idx = i ↔
      j = off p.layout n c i / 2 := by
  constructor
  · rintro ⟨rfl, rfl⟩
    rw [frameWrite, off_loc]
    omega
  · rintro rfl
    rw [frameWrite_off p fno bytes hc hi]
    exact ⟨rfl, rfl⟩

/-- Each place of a frame is written once. -/
theorem filter_frameWrites {p : Params} {n fno c i : Nat} {bytes : List Byte} (hc : c < 2) (hi : i < n) :
    (frameWrites p n fno bytes).filter (fun w => w.ch == c && w.idx == i) =
      [frameWrite p n fno bytes (off p.layout n c i / 2)] := by
  have inside := off_add_one_lt p.layout hc hi
  have chosen : (fun w : SampleWrite => w.ch == c && w.idx == i) ∘ frameWrite p n fno bytes =
      fun j => j == off p.layout n c i / 2 := by
    funext j
    rw [Bool.eq_iff_iff]
    simp only [Function.comp_apply, Bool.and_eq_true, beq_iff_eq]
    exact frameWrite_place_iff j hc hi
  rw [frameWrites, List.filter_map, chosen, List.filter_beq,
    List.count_eq_one_of_mem List.nodup_range (List.mem_range.mpr (by omega))]
  rfl

/-- Settles O53: the run inside the frame by `InFrame`, its writes by their closed form. -/
theorem everyFrameWritesEachCellOnce : Obligations.EveryFrameWritesEachCellOnce := by
  intro s bytes st pos nonempty length
  obtain ⟨t, b, inFrame, received, _⟩ := receive_frame st pos length nonempty
  obtain ⟨endPos, endFno⟩ := afpRxByte_last_tick (s := t.quiet) inFrame.st (inFrame.last nonempty) b
  rw [received, sampleWrites_frame st pos length]
  refine ⟨fun k hk => ?inside, endPos, ?counted, length_frameWrites .., fun w hw => ?places,
    fun c i hc hi => ?once⟩
  case inside =>
    have inFrame := inFrame_receive_take st pos length hk
    exact ⟨inFrame.pos, inFrame.st, inFrame.fno⟩
  case counted => rw [endFno, State.quiet_fno, State.quiet_cfg, inFrame.fno, inFrame.same.cfg]
  case places =>
    obtain ⟨j, hj, rfl⟩ := mem_frameWrites.mp hw
    exact ⟨rfl, frameWrite_lt s.cfg s.fno bytes hj⟩
  case once =>
    exact ⟨_, by rw [filter_frameWrites hc hi, frameWrite_off s.cfg s.fno bytes hc hi]⟩

end Sys2Proof.Machine
end

section
/-! What a frame leaves in `OUT` (42_frame_parser.md R191, R192, R196): its own cells hold the samples of
its bytes, the cells of every other frame are as they were, and its padding bytes leave no trace. -/

namespace Sys2Proof.Machine

/-! ## The writes of a run, performed -/

/-- The cell of a write (20_memory.md R53). -/
def SampleWrite.cell (n : Nat) (w : SampleWrite) : Nat := cellAddr n w.fno w.ch w.idx

/-- Writes of the sample port, performed on `OUT` in order; `receive_mem` says that these are what a run
does to it. -/
def writeSamples (n : Nat) (m : Memory) (ws : List SampleWrite) : Memory :=
  ws.foldl (fun m w => memWriteCell m (w.cell n) w.data) m

theorem writeSamples_append (n : Nat) (m : Memory) (ws vs : List SampleWrite) :
    writeSamples n m (ws ++ vs) = writeSamples n (writeSamples n m ws) vs := List.foldl_append

/-- What a received byte does to `OUT` is what its step shows on the sample port (20_memory.md R52). -/
theorem afpRxByte_quiet_mem (b : Byte) (s : State) :
    (afpRxByte b s.quiet).mem = writeSamples s.n s.mem (afpRxByte b s.quiet).out.sample.toList := by
  by_cases st : s.st = .rx
  · obtain ⟨_, mem, sample⟩ := afpRxByte_data (s := s.quiet) st b
    rw [mem, sample]
    rcases disposeByte_cases s.quiet b with ⟨_, _, eq⟩ | ⟨_, _, eq⟩ | ⟨_, eq⟩ <;> rw [eq] <;> rfl
  · rw [afpRxByte_other b s.quiet st]
    rfl

theorem receive_mem (bytes : List Byte) (s : State) :
    (receive bytes s).mem = writeSamples s.n s.mem (sampleWrites bytes s) := by
  induction bytes generalizing s with
  | nil => rfl
  | cons b rest ih =>
    have n : (afpRxByte b s.quiet).n = s.n := (sameAcquisition_afpRxByte b s.quiet).n
    rw [receive, ih, sampleWrites, writeSamples_append, afpRxByte_quiet_mem, n]

/-- A cell that no write goes to reads as before. -/
theorem memReadCell_writeSamples_of_ne {n a : Nat} {ws : List SampleWrite} (m : Memory)
    (other : ∀ w ∈ ws, a ≠ w.cell n) : memReadCell (writeSamples n m ws) a = memReadCell m a := by
  induction ws using List.reverseRecOn with
  | nil => rfl
  | append_singleton ws w ih =>
    rw [writeSamples_append]
    exact (memReadCell_memWriteCell_ne _ _ _ _ (other w (by simp))).trans
      (ih fun v hv => other v (by simp [hv]))

/-- A cell that one write only goes to reads as written. -/
theorem memReadCell_writeSamples_of_unique {n : Nat} {ws : List SampleWrite} {w : SampleWrite} (m : Memory)
    (hw : w ∈ ws) (unique : ∀ v ∈ ws, v.cell n = w.cell n → v = w) :
    memReadCell (writeSamples n m ws) (w.cell n) = some w.data := by
  induction ws using List.reverseRecOn with
  | nil => exact absurd hw (List.not_mem_nil)
  | append_singleton ws v ih =>
    rw [writeSamples_append]
    refine (memReadCell_memWriteCell ..).trans ?_
    split
    next same => rw [unique v (by simp) same.symm]
    next other =>
      have earlier : w ∈ ws := by
        rcases List.mem_append.mp hw with earlier | last
        · exact earlier
        · exact absurd (congrArg (SampleWrite.cell n) (List.mem_singleton.mp last)) other
      exact ih earlier fun u hu => unique u (by simp [hu])

/-! ## The writes of one frame -/

theorem frameWrites_places {p : Params} {n fno : Nat} {bytes : List Byte} {w : SampleWrite}
    (hw : w ∈ frameWrites p n fno bytes) : w.fno = fno ∧ w.ch < 2 ∧ w.idx < n := by
  obtain ⟨j, hj, rfl⟩ := mem_frameWrites.mp hw
  exact ⟨rfl, frameWrite_lt p fno bytes hj⟩

/-- A frame writes each of its cells from one pair of bytes. -/
theorem eq_of_cell_eq_of_mem_frameWrites {p : Params} {n fno : Nat} {bytes : List Byte}
    {v w : SampleWrite} (hv : v ∈ frameWrites p n fno bytes) (hw : w ∈ frameWrites p n fno bytes)
    (same : v.cell n = w.cell n) : v = w := by
  obtain ⟨_, channelV, indexV⟩ := frameWrites_places hv
  obtain ⟨_, channelW, indexW⟩ := frameWrites_places hw
  obtain ⟨_, channel, index⟩ := cellAddr_inj channelV indexV channelW indexW same
  obtain ⟨j, _, rfl⟩ := mem_frameWrites.mp hv
  obtain ⟨k, _, rfl⟩ := mem_frameWrites.mp hw
  have first := (frameWrite_place_iff j channelW indexW).mp ⟨channel, index⟩
  have second := (frameWrite_place_iff k channelW indexW).mp ⟨rfl, rfl⟩
  rw [first, ← second]

/-- The cells of frame `f` hold the samples assembled from the bytes `frame` (42_frame_parser.md R191). -/
def State.HoldsFrame (s : State) (f : Nat) (frame : List Byte) : Prop :=
  ∀ c i, c < 2 → i < s.n → ∃ b0 b1, frame[off s.cfg.layout s.n c i]? = some b0 ∧
    frame[off s.cfg.layout s.n c i + 1]? = some b1 ∧
    memReadCell s.mem (cellAddr s.n f c i) = some (asmSample s.cfg.sampleOrder b0 b1)

/-- What a frame's cells hold is a matter of `OUT`, the length and the parameters. -/
theorem State.HoldsFrame.of_same {s t : State} {f : Nat} {frame : List Byte} (h : s.HoldsFrame f frame)
    (same : SameAcquisition s t) (mem : t.mem = s.mem) : t.HoldsFrame f frame := by
  unfold State.HoldsFrame
  rw [same.n, same.cfg, mem]
  exact h

section

variable {s : State} {bytes : List Byte} (st : s.st = .rx) (pos : s.pos = 0)
  (length : bytes.length = s.fbytes)

include st pos length

/-- A frame leaves its samples in the cells of its number. -/
theorem holdsFrame_receive : (receive bytes s).HoldsFrame s.fno bytes := by
  have same := sameAcquisition_receive bytes s
  intro c i hc hi
  rw [same.n] at hi
  rw [same.n, same.cfg]
  have inside := off_add_one_lt s.cfg.layout hc hi
  rw [fbytes_eq] at length
  have first : off s.cfg.layout s.n c i < bytes.length := by omega
  have second : off s.cfg.layout s.n c i + 1 < bytes.length := by omega
  refine ⟨_, _, List.getElem?_eq_getElem first, List.getElem?_eq_getElem second, ?_⟩
  have written : frameWrite s.cfg s.n s.fno bytes (off s.cfg.layout s.n c i / 2) ∈
      frameWrites s.cfg s.n s.fno bytes := mem_frameWrites.mpr ⟨_, by omega, rfl⟩
  have read := memReadCell_writeSamples_of_unique s.mem written
    fun v hv same => eq_of_cell_eq_of_mem_frameWrites hv written same
  rw [← sampleWrites_frame st pos length, ← receive_mem, frameWrite_off s.cfg s.fno bytes hc hi] at read
  simpa [SampleWrite.cell, first, second] using read

/-- A frame leaves the cells of every other number (42_frame_parser.md R196). -/
theorem State.HoldsFrame.receive {f : Nat} {frame : List Byte} (h : s.HoldsFrame f frame)
    (other : f ≠ s.fno) : (receive bytes s).HoldsFrame f frame := by
  have same := sameAcquisition_receive bytes s
  intro c i hc hi
  rw [same.n] at hi
  rw [same.n, same.cfg]
  obtain ⟨b0, b1, first, second, read⟩ := h c i hc hi
  refine ⟨b0, b1, first, second, ?_⟩
  rw [receive_mem, sampleWrites_frame st pos length, memReadCell_writeSamples_of_ne, read]
  intro w hw sameCell
  obtain ⟨number, channel, index⟩ := frameWrites_places hw
  obtain ⟨frame, _, _⟩ := cellAddr_inj hc hi channel index sameCell
  exact other (frame.trans number)

/-- Frames that agree in the sample region lead to the same state (42_frame_parser.md R184, R191). -/
theorem receive_eq_of_samples_eq {bytes' : List Byte} (length' : bytes'.length = bytes.length)
    (agree : ∀ k < s.sbytes, bytes'[k]? = bytes[k]?) : receive bytes' s = receive bytes s := by
  have upTo {k : Nat} (hk : k ≤ s.fbytes) :
      receive (bytes'.take k) s = receive (bytes.take k) s := by
    induction k with
    | zero => simp
    | succ k ih =>
      have byte : k < bytes.length := by omega
      have byte' : k < bytes'.length := by omega
      have inFrame := inFrame_receive_take st pos length hk
      rw [List.take_succ_eq_append_getElem byte, List.take_succ_eq_append_getElem byte', receive_append,
        receive_append, ih (by omega)]
      by_cases inSample : k < s.sbytes
      · have same : bytes'[k] = bytes[k] := by
          simpa [byte, byte'] using agree k inSample
        rw [same]
      · have region : (receive (bytes.take k) s).quiet.sbytes = s.sbytes := inFrame.same.sbytes
        have whole : (receive (bytes.take k) s).quiet.fbytes = s.fbytes := inFrame.same.fbytes
        obtain ⟨dropped, _⟩ := paddingBytesAreDropped (receive (bytes.take k) s).quiet bytes'[k] bytes[k]
          inFrame.st (by rw [region, State.quiet_pos, inFrame.pos]; omega)
          (by rw [whole, State.quiet_pos, inFrame.pos]; omega)
        exact dropped
  have whole := upTo le_rfl
  rwa [List.take_of_length_le (by omega), List.take_of_length_le (by omega)] at whole

end

end Sys2Proof.Machine
end

section
/-! A bulk batch, frame by frame (42_frame_parser.md R191). Before its last frame the batch is `m` frames
in (`InBatch`); each frame leaves its samples in the cells of its own number, and the last one completes
the batch. -/

namespace Sys2Proof.Machine

/-! ## One frame of a batch -/

/-- A frame in bulk mode, by its last byte (42_frame_parser.md R185). -/
theorem receive_frame_bulk {s : State} {bytes : List Byte} (st : s.st = .rx) (pos : s.pos = 0)
    (length : bytes.length = s.fbytes) (nonempty : 0 < s.fbytes) (mode : s.mode = .bulk) :
    (receive bytes s).pos = 0 ∧ (receive bytes s).fno = (s.fno + 1) % 2 ^ s.cfg.fnoW ∧
    (receive bytes s).evt = s.evt + 1 ∧
    (s.evt + 1 = s.amount → (receive bytes s).st = .idle ∧ (receive bytes s).batchOk = true) ∧
    (s.evt + 1 ≠ s.amount → (receive bytes s).st = .rx) := by
  obtain ⟨t, b, inFrame, received, _⟩ := receive_frame st pos length nonempty
  obtain ⟨endPos, fno, evt, _, done, more, _⟩ := bulkFrameEnds t.quiet _ b inFrame.st
    (inFrame.same.mode.trans mode) (inFrame.last nonempty) rfl
  simp only [State.quiet_evt, State.quiet_fno, State.quiet_amount, State.quiet_cfg, inFrame.evt, inFrame.fno,
    inFrame.same.amount, inFrame.same.cfg] at fno evt done more
  rw [received]
  refine ⟨endPos, fno, evt, fun last => ?_, fun notLast => (more notLast).1⟩
  obtain ⟨idle, batchOk, _⟩ := done last
  exact ⟨idle, batchOk⟩

/-! ## The batch -/

/-- The bytes of the `f`-th frame. -/
def frameOf (s : State) (bytes : List Byte) (f : Nat) : List Byte :=
  (bytes.drop (f * s.fbytes)).take s.fbytes

theorem getElem?_frameOf {s : State} {k : Nat} (bytes : List Byte) (f : Nat) (hk : k < s.fbytes) :
    (frameOf s bytes f)[k]? = bytes[f * s.fbytes + k]? := by
  rw [frameOf, List.getElem?_take_of_lt hk, List.getElem?_drop]

theorem take_succ_frames (s : State) (bytes : List Byte) (m : Nat) :
    bytes.take ((m + 1) * s.fbytes) = bytes.take (m * s.fbytes) ++ frameOf s bytes m := by
  rw [Nat.succ_mul, List.take_add, frameOf]

/-- `t` comes `m` frames into the batch that begins in `s`. -/
structure InBatch (s : State) (m : Nat) (t : State) : Prop where
  same : SameAcquisition s t
  st : t.st = .rx
  pos : t.pos = 0
  evt : t.evt.toNat = m
  fno : t.fno = m

/-- A frame that is not the batch's last one leaves the batch in `RX`, one frame further. -/
theorem InBatch.next {s t : State} {m : Nat} {frame : List Byte} (h : InBatch s m t)
    (mode : s.mode = .bulk) (nonempty : 0 < s.fbytes) (fits : s.amount.toNat < 2 ^ s.cfg.fnoW)
    (length : frame.length = t.fbytes) (more : m + 1 < s.amount.toNat) :
    InBatch s (m + 1) (receive frame t) := by
  obtain ⟨pos, fno, evt, _, rx⟩ := receive_frame_bulk h.st h.pos length (h.same.fbytes.symm ▸ nonempty)
    (h.same.mode.trans mode)
  have count := h.evt
  have events : (t.evt + 1).toNat = m + 1 := by bv_omega
  have notLast : t.evt + 1 ≠ t.amount := by
    intro last
    rw [← h.same.amount, ← last, events] at more
    omega
  exact ⟨h.same.trans (sameAcquisition_receive _ _), rx notLast, pos, by rw [evt, events],
    by rw [fno, h.fno, h.same.cfg, Nat.mod_eq_of_lt (by omega)]⟩

section

variable {s : State} {bytes : List Byte} (start : InBatch s 0 s) (mode : s.mode = .bulk)
  (nonempty : 0 < s.fbytes) (fits : s.amount.toNat < 2 ^ s.cfg.fnoW)
  (length : bytes.length = s.amount.toNat * s.fbytes)

include length in
theorem length_frameOf {m : Nat} (hm : m < s.amount.toNat) : (frameOf s bytes m).length = s.fbytes := by
  have room : (m + 1) * s.fbytes ≤ s.amount.toNat * s.fbytes := Nat.mul_le_mul_right _ hm
  rw [Nat.succ_mul] at room
  rw [frameOf, List.length_take, List.length_drop, length]
  omega

include start mode nonempty fits length

theorem inBatch_receive_take {m : Nat} (hm : m < s.amount.toNat) :
    InBatch s m (receive (bytes.take (m * s.fbytes)) s) := by
  induction m with
  | zero => simpa [receive] using start
  | succ m ih =>
    have before := ih (by omega)
    rw [take_succ_frames, receive_append]
    exact before.next mode nonempty fits
      ((length_frameOf length (by omega)).trans before.same.fbytes.symm) hm

/-- Every frame of the batch, the last one too, is received from a state in the batch. -/
theorem frame_of_batch {m : Nat} (hm : m < s.amount.toNat) :
    InBatch s m (receive (bytes.take (m * s.fbytes)) s) ∧
    (frameOf s bytes m).length = (receive (bytes.take (m * s.fbytes)) s).fbytes :=
  have before := inBatch_receive_take start mode nonempty fits length hm
  ⟨before, (length_frameOf length hm).trans before.same.fbytes.symm⟩

theorem length_sampleWrites_batch {m : Nat} (hm : m ≤ s.amount.toNat) :
    (sampleWrites (bytes.take (m * s.fbytes)) s).length = 2 * s.n * m := by
  induction m with
  | zero => simp [sampleWrites]
  | succ m ih =>
    obtain ⟨before, frame⟩ := frame_of_batch start mode nonempty fits length hm
    rw [take_succ_frames, sampleWrites_append, List.length_append, ih (by omega),
      sampleWrites_frame before.st before.pos frame, length_frameWrites, before.same.n, Nat.mul_succ]

/-- The frames received so far are in `OUT`, each in the cells of its own number. -/
theorem holdsFrame_batch {m : Nat} (hm : m ≤ s.amount.toNat) {f : Nat} (hf : f < m) :
    (receive (bytes.take (m * s.fbytes)) s).HoldsFrame f (frameOf s bytes f) := by
  induction m with
  | zero => omega
  | succ m ih =>
    obtain ⟨before, frame⟩ := frame_of_batch start mode nonempty fits length hm
    rw [take_succ_frames, receive_append]
    rcases Nat.lt_succ_iff_lt_or_eq.mp hf with earlier | rfl
    · exact State.HoldsFrame.receive before.st before.pos frame (ih (by omega) earlier)
        (by rw [before.fno]; omega)
    · have held := holdsFrame_receive before.st before.pos frame
      rwa [before.fno] at held

/-- No padding byte of the batch leaves a trace. -/
theorem receive_batch_eq_of_samples_eq {bytes' : List Byte} (length' : bytes'.length = bytes.length)
    (agree : ∀ k, k % s.fbytes < s.sbytes → bytes'[k]? = bytes[k]?) {m : Nat}
    (hm : m ≤ s.amount.toNat) :
    receive (bytes'.take (m * s.fbytes)) s = receive (bytes.take (m * s.fbytes)) s := by
  induction m with
  | zero => simp
  | succ m ih =>
    obtain ⟨before, frame⟩ := frame_of_batch start mode nonempty fits length hm
    rw [take_succ_frames, take_succ_frames, receive_append, receive_append, ih (by omega)]
    refine receive_eq_of_samples_eq before.st before.pos frame ?_ fun k hk => ?_
    · rw [length_frameOf length hm, length_frameOf (length'.trans length) hm]
    · rw [before.same.sbytes] at hk
      have inFrame : k < s.fbytes := Nat.lt_of_lt_of_le hk (Nat.le_add_right _ _)
      rw [getElem?_frameOf _ _ inFrame, getElem?_frameOf _ _ inFrame]
      refine agree _ ?_
      rwa [Nat.mul_add_mod', Nat.mod_eq_of_lt inFrame]

/-- The last frame completes the batch (42_frame_parser.md R185). -/
theorem receive_batch_completes (nonzero : s.amount ≠ 0) :
    (receive bytes s).st = .idle ∧ (receive bytes s).batchOk = true ∧ (receive bytes s).evt = s.amount ∧
    (receive bytes s).fno = s.amount.toNat := by
  obtain ⟨m, amount⟩ : ∃ m, s.amount.toNat = m + 1 := Nat.exists_eq_succ_of_ne_zero (by bv_omega)
  obtain ⟨before, frame⟩ := frame_of_batch start mode nonempty fits length
    (by omega : m < s.amount.toNat)
  obtain ⟨_, endFno, endEvt, done, _⟩ := receive_frame_bulk before.st before.pos frame
    (before.same.fbytes.symm ▸ nonempty) (before.same.mode.trans mode)
  have whole := take_succ_frames s bytes m
  rw [← amount, ← length, List.take_length] at whole
  have count := before.evt
  have last : (receive (bytes.take (m * s.fbytes)) s).evt + 1 = s.amount := by bv_omega
  rw [before.same.amount] at done
  obtain ⟨idle, batchOk⟩ := done last
  rw [whole, receive_append]
  refine ⟨idle, batchOk, endEvt.trans last, ?_⟩
  rw [endFno, before.fno, before.same.cfg, amount, Nat.mod_eq_of_lt (by omega)]

end

/-- The start command of a batch with frames to receive (42_frame_parser.md R174, R176). -/
theorem afpIssue_afpStartBulk {s : State} {a : Count} (st : s.st = .idle) (valid : s.nValid = true)
    (nonempty : 0 < s.fbytes) (nonzero : a ≠ 0) :
    afpIssue (afpStartBulk a s) =
      { (s.beginAcquisition .bulk a .cmd).txWord (s.beginAcquisition .bulk a .cmd).startWord with
        st := .rx, pos := 0 } := by
  rw [afpStartBulk_of_accepted a st valid nonempty, afpIssue_of_frames_due rfl fun empty => nonzero empty.2]

/-- The start command leads to the beginning of the batch. -/
theorem inBatch_start {s u : State} {a : Count} (st : s.st = .idle) (valid : s.nValid = true)
    (nonempty : 0 < s.fbytes) (nonzero : a ≠ 0) (started : afpIssue (afpStartBulk a s) = u) :
    InBatch u 0 u ∧ u.mode = .bulk ∧ u.amount = a ∧ u.n = s.n ∧ u.cfg = s.cfg ∧
    u.tx = s.tx ++ [(s.beginAcquisition .bulk a .cmd).startWord] := by
  rw [afpIssue_afpStartBulk st valid nonempty nonzero] at started
  subst started
  exact ⟨⟨⟨rfl, rfl, rfl, rfl⟩, rfl, rfl, rfl, rfl⟩, rfl, rfl, rfl, rfl, rfl⟩

/-- Settles O54: the batch that begins with the state the start command leads to. -/
theorem bulkBatchComputesTheArray : Obligations.BulkBatchComputesTheArray := by
  intro s t a bytes st valid nonempty nonzero fits length eq
  generalize started : afpIssue (afpStartBulk a s) = u at eq ⊢
  obtain ⟨start, mode, rfl, n, cfg, tx⟩ := inBatch_start st valid nonempty nonzero started
  have sbytes : u.sbytes = s.sbytes := by simp only [State.sbytes, n]
  have fbytes : u.fbytes = s.fbytes := by simp only [fbytes_eq, n, cfg]
  rw [← cfg] at fits
  rw [← fbytes] at nonempty length
  obtain ⟨idle, batchOk, evt, fno⟩ := receive_batch_completes start mode nonempty fits length nonzero
  subst eq
  refine ⟨idle, batchOk, evt, fno, ⟨_, toNat_startWord _, (receive_tx _ _).trans tx⟩, ?writes,
    fun f c i hf hc hi => ?samples, fun bytes' length' agree => ?padding⟩
  case writes =>
    have writes := length_sampleWrites_batch start mode nonempty fits length le_rfl
    rwa [← length, List.take_length, n] at writes
  case samples =>
    have held := holdsFrame_batch start mode nonempty fits length le_rfl hf
    have same := sameAcquisition_receive bytes u
    rw [← length, List.take_length] at held
    have inside := off_add_one_lt s.cfg.layout hc hi
    have region : s.sbytes ≤ u.fbytes := sbytes ▸ Nat.le_add_right _ _
    simp only [State.sbytes] at region
    obtain ⟨b0, b1, first, second, read⟩ := held c i hc (by rwa [same.n, n])
    rw [same.n, same.cfg, n, cfg] at first second read
    rw [getElem?_frameOf _ _ (by omega), fbytes] at first second
    exact ⟨b0, b1, first, second, read⟩
  case padding =>
    rw [← fbytes, ← sbytes] at agree
    have traceless := receive_batch_eq_of_samples_eq start mode nonempty fits length length' agree le_rfl
    rw [← length, List.take_length, ← length', List.take_length] at traceless
    rw [traceless]

end Sys2Proof.Machine
end

section
/-! Continuous mode, pull by pull (42_frame_parser.md R178, R192). Between two pulls the acquisition is `k`
frames in (`Streaming`): `evt` and `fno` count `k` modulo the burst and the width, and a start command has
gone out for every burst begun. -/

namespace Sys2Proof.Machine

/-! ## Counting modulo the burst -/

/-- Counting modulo `b` returns to 0 where it reaches `b`. -/
theorem succ_mod_eq (k : Nat) {b : Nat} (positive : 0 < b) :
    (k + 1) % b = if k % b + 1 = b then 0 else k % b + 1 := by
  have below := Nat.mod_lt k positive
  rw [← Nat.mod_add_mod]
  split
  next full => rw [full, Nat.mod_self]
  next => exact Nat.mod_eq_of_lt (by omega)

/-- After `k` frames a start command has gone out for each whole burst and for one that is not whole. -/
theorem bursts_begun_eq (k : Nat) {b : Nat} (positive : 0 < b) :
    (k + b - 1) / b = k / b + if k % b = 0 then 0 else 1 := by
  have below := Nat.mod_lt k positive
  have parts := Nat.div_add_mod k b
  split
  next whole =>
    have digits : k + b - 1 = b * (k / b) + (b - 1) := by omega
    rw [digits, Nat.mul_add_div positive, Nat.div_eq_of_lt (by omega : b - 1 < b)]
  next partly =>
    have digits : k + b - 1 = b * (k / b) + (k % b - 1 + b) := by omega
    rw [digits, Nat.mul_add_div positive, Nat.add_div_right _ positive,
      Nat.div_eq_of_lt (by omega : k % b - 1 < b)]

/-- A pull begins a burst exactly when the frames before it make whole bursts (42_frame_parser.md R178). -/
theorem bursts_begun_succ (k : Nat) {b : Nat} (positive : 0 < b) :
    (k + 1 + b - 1) / b = (k + b - 1) / b + if k % b = 0 then 1 else 0 := by
  rw [bursts_begun_eq k positive, show k + 1 + b - 1 = k + b by omega, Nat.add_div_right k positive]
  split <;> rfl

/-! ## One pull and its frame -/

/-- An accepted pull goes through `CMD` at a burst boundary only (42_frame_parser.md R177). -/
theorem afpPull_st_iff {s : State} (st : s.st = .wait) :
    ((afpPull s).st = .cmd ↔ s.evt = 0) ∧ ((afpPull s).st = .rx ↔ s.evt ≠ 0) := by
  by_cases boundary : s.evt = 0
  · simp [afpPull_of_boundary st boundary, boundary]
  · simpa [afpPull_of_inside st boundary] using boundary

/-- A pull leads to `RX` at the frame's first byte, with a start command at a burst boundary
(42_frame_parser.md R176, R177). -/
theorem pullOnce_of_wait {s : State} (st : s.st = .wait) (mode : s.mode = .cont) :
    SameAcquisition s (pullOnce s) ∧ (pullOnce s).st = .rx ∧ (pullOnce s).pos = 0 ∧
    (pullOnce s).evt = s.evt ∧ (pullOnce s).fno = s.fno ∧ (pullOnce s).mem = s.mem ∧
    (pullOnce s).tx = s.tx ++ if s.evt = 0 then [s.startWord] else [] := by
  by_cases boundary : s.evt = 0
  · have pulled : pullOnce s = afpIssue { s.quiet with st := .cmd } := by
      simp only [pullOnce, afpPull_of_boundary (s := s.quiet) st boundary, if_true]
      rfl
    rw [pulled, afpIssue_of_frames_due rfl fun bulk => by simp [mode] at bulk, if_pos boundary]
    exact ⟨⟨rfl, rfl, rfl, rfl⟩, rfl, rfl, rfl, rfl, rfl, rfl⟩
  · have pulled : pullOnce s = { s.quiet with st := .rx, pos := 0 } := by
      simp [pullOnce, afpPull_of_inside (s := s.quiet) st boundary]
    rw [pulled, if_neg boundary, List.append_nil]
    exact ⟨⟨rfl, rfl, rfl, rfl⟩, rfl, rfl, rfl, rfl, rfl, rfl⟩

/-- A frame in continuous mode, by its last byte (42_frame_parser.md R186). -/
theorem receive_frame_cont {s : State} {bytes : List Byte} (st : s.st = .rx) (pos : s.pos = 0)
    (length : bytes.length = s.fbytes) (nonempty : 0 < s.fbytes) (mode : s.mode = .cont) :
    (receive bytes s).st = .wait ∧ (receive bytes s).fno = (s.fno + 1) % 2 ^ s.cfg.fnoW ∧
    (receive bytes s).evt = (if s.evt + 1 = s.amount then 0 else s.evt + 1) ∧
    framesDone bytes s = 1 := by
  obtain ⟨t, b, inFrame, received, handedOver⟩ := receive_frame st pos length nonempty
  obtain ⟨_, fno, _, frameDone, wait, done, more, _⟩ := continuousFrameEnds t.quiet _ b inFrame.st
    (inFrame.same.mode.trans mode) (inFrame.last nonempty) rfl
  simp only [State.quiet_evt, State.quiet_fno, State.quiet_amount, State.quiet_cfg, inFrame.evt, inFrame.fno,
    inFrame.same.amount, inFrame.same.cfg] at fno done more
  rw [received, handedOver, frameDone]
  refine ⟨wait, fno, ?_, rfl⟩
  split
  next last => exact done last
  next notLast => exact more notLast

/-! ## Pull after pull -/

theorem streamFrames_append (xs ys : List (List Byte)) (s : State) :
    streamFrames (xs ++ ys) s = streamFrames ys (streamFrames xs s) := by
  induction xs generalizing s with
  | nil => rfl
  | cons frame rest ih => exact ih _

theorem streamFramesDone_append (xs ys : List (List Byte)) (s : State) :
    streamFramesDone (xs ++ ys) s = streamFramesDone xs s + streamFramesDone ys (streamFrames xs s) := by
  induction xs generalizing s with
  | nil => simp [streamFramesDone, streamFrames]
  | cons frame rest ih =>
    simp only [List.cons_append, streamFramesDone, streamFrames, ih, Nat.add_assoc]

/-- `t` comes `k` frames into the continuous acquisition that begins in `s`. -/
structure Streaming (s : State) (k : Nat) (t : State) : Prop where
  same : SameAcquisition s t
  st : t.st = .wait
  evt : t.evt.toNat = k % s.amount.toNat
  fno : t.fno = k % 2 ^ s.cfg.fnoW
  tx : t.tx = s.tx ++ List.replicate ((k + s.amount.toNat - 1) / s.amount.toNat) s.startWord

/-- A burst is begun where the frames so far make whole bursts. -/
theorem Streaming.evt_eq_zero_iff {s t : State} {k : Nat} (h : Streaming s k t) :
    t.evt = 0 ↔ k % s.amount.toNat = 0 := by
  rw [← h.evt]
  bv_omega

theorem SameAcquisition.startWord {s t : State} (h : SameAcquisition s t) : t.startWord = s.startWord := by
  rw [State.startWord, h.amount, State.startWord]

theorem Streaming.next {s t : State} {k : Nat} {frame : List Byte} (h : Streaming s k t)
    (mode : s.mode = .cont) (nonempty : 0 < s.fbytes) (burst : s.amount ≠ 0)
    (length : frame.length = s.fbytes) :
    Streaming s (k + 1) (receive frame (pullOnce t)) ∧ framesDone frame (pullOnce t) = 1 := by
  obtain ⟨pulled, rx, pos, evt, fno, _, tx⟩ := pullOnce_of_wait h.st (h.same.mode.trans mode)
  have same := h.same.trans pulled
  have positive : 0 < s.amount.toNat := by bv_omega
  obtain ⟨wait, endFno, endEvt, handedOver⟩ := receive_frame_cont rx pos (length.trans same.fbytes.symm)
    (same.fbytes.symm ▸ nonempty) (same.mode.trans mode)
  refine ⟨⟨same.trans (sameAcquisition_receive _ _), wait, ?_, ?_, ?_⟩, handedOver⟩
  · have count := h.evt
    have below : t.evt.toNat < s.amount.toNat := count ▸ Nat.mod_lt k positive
    rw [endEvt, evt, same.amount, succ_mod_eq k positive, ← count]
    split
    next full => rw [if_pos (by bv_omega)]; rfl
    next partly => rw [if_neg (by bv_omega)]; bv_omega
  · rw [endFno, fno, h.fno, same.cfg, Nat.mod_add_mod]
  · rw [receive_tx, tx, h.tx, bursts_begun_succ k positive, List.append_assoc, h.same.startWord,
      ← List.replicate_append_replicate]
    congr 2
    by_cases boundary : t.evt = 0
    · rw [if_pos boundary, if_pos (h.evt_eq_zero_iff.mp boundary), List.replicate_one]
    · rw [if_neg boundary, if_neg (mt h.evt_eq_zero_iff.mpr boundary), List.replicate_zero]

section

variable {s : State} (start : Streaming s 0 s) (mode : s.mode = .cont) (nonempty : 0 < s.fbytes)
  (burst : s.amount ≠ 0) {frames : List (List Byte)} (lengths : ∀ f ∈ frames, f.length = s.fbytes)

include start mode nonempty burst lengths

theorem streaming_streamFrames : Streaming s frames.length (streamFrames frames s) ∧
    streamFramesDone frames s = frames.length := by
  induction frames using List.reverseRecOn with
  | nil => exact ⟨start, rfl⟩
  | append_singleton frames frame ih =>
    obtain ⟨before, done⟩ := ih fun f hf => lengths f (by simp [hf])
    obtain ⟨after, handedOver⟩ := before.next mode nonempty burst (lengths frame (by simp))
    rw [streamFrames_append, streamFramesDone_append, List.length_append, done]
    exact ⟨after, congrArg (frames.length + ·) handedOver⟩

/-- While `fno` does not wrap, every frame keeps the cells of its own number (42_frame_parser.md R196). -/
theorem holdsFrame_streamFrames (fits : frames.length ≤ 2 ^ s.cfg.fnoW) {j : Nat} {frame : List Byte}
    (hj : frames[j]? = some frame) : (streamFrames frames s).HoldsFrame j frame := by
  induction frames using List.reverseRecOn with
  | nil => simp at hj
  | append_singleton frames last ih =>
    have earlierLengths (f : List Byte) (hf : f ∈ frames) : f.length = s.fbytes := lengths f (by simp [hf])
    obtain ⟨before, _⟩ := streaming_streamFrames start mode nonempty burst earlierLengths
    obtain ⟨pulled, rx, pos, _, fno, mem, _⟩ := pullOnce_of_wait before.st (before.same.mode.trans mode)
    have length : last.length = (pullOnce (streamFrames frames s)).fbytes := by
      rw [pulled.fbytes, before.same.fbytes]
      exact lengths last (by simp)
    rw [List.length_append, List.length_singleton] at fits
    have number : (pullOnce (streamFrames frames s)).fno = frames.length := by
      rw [fno, before.fno, Nat.mod_eq_of_lt fits]
    rw [streamFrames_append]
    rcases Nat.lt_or_ge j frames.length with earlier | notEarlier
    · rw [List.getElem?_append_left earlier] at hj
      have held := ih earlierLengths (by omega) hj
      exact (held.of_same pulled mem).receive rx pos length (by omega)
    · rw [List.getElem?_append_right notEarlier, List.getElem?_singleton] at hj
      split at hj
      next here =>
        cases hj
        have held := holdsFrame_receive rx pos length
        rwa [number, show frames.length = j by omega] at held
      next => cases hj

end

/-- The accepted start leads to the beginning of the acquisition (42_frame_parser.md R175). -/
theorem streaming_start {s u : State} {b : Count} (st : s.st = .idle) (valid : s.nValid = true)
    (nonempty : 0 < s.fbytes) (burst : b ≠ 0) (started : afpStartCont b s = u) :
    Streaming u 0 u ∧ u.mode = .cont ∧ u.amount = b ∧ u.n = s.n ∧ u.cfg = s.cfg ∧ u.tx = s.tx := by
  rw [afpStartCont_of_accepted st valid nonempty burst] at started
  subst started
  have noBurst : (0 + b.toNat - 1) / b.toNat = 0 := Nat.div_eq_of_lt (by bv_omega)
  refine ⟨⟨⟨rfl, rfl, rfl, rfl⟩, rfl, (Nat.zero_mod _).symm, (Nat.zero_mod _).symm, ?_⟩,
    rfl, rfl, rfl, rfl, rfl⟩
  rw [State.beginAcquisition_amount, noBurst, List.replicate_zero, List.append_nil]

/-- Settles O55: the law is what `Streaming` says of the frames before the pull and of those with it. -/
theorem startCommandsFollowTheReArmLaw : Obligations.StartCommandsFollowTheReArmLaw := by
  intro s u t b frames bytes st valid nonempty burst lengths length eqU eqT
  generalize started : afpStartCont b s = v at eqU
  obtain ⟨start, mode, rfl, n, cfg, tx⟩ := streaming_start st valid nonempty burst started
  have fbytes : v.fbytes = s.fbytes := by simp only [fbytes_eq, n, cfg]
  rw [← fbytes] at nonempty length lengths
  subst eqU eqT
  obtain ⟨before, _⟩ := streaming_streamFrames start mode nonempty burst lengths
  obtain ⟨after, _⟩ := before.next mode nonempty burst length
  rw [← tx]
  obtain ⟨command, reception⟩ := afpPull_st_iff before.st
  exact ⟨command.trans before.evt_eq_zero_iff, reception.trans (not_congr before.evt_eq_zero_iff),
    v.startWord, toNat_startWord v, before.tx, after.tx⟩

/-- Settles O56: the registers by `Streaming`, the samples by `HoldsFrame`. -/
theorem continuousModeComputesEveryFrame : Obligations.ContinuousModeComputesEveryFrame := by
  intro s t b frames st valid nonempty burst lengths eq
  generalize started : afpStartCont b s = u at eq ⊢
  obtain ⟨start, mode, rfl, n, cfg, _⟩ := streaming_start st valid nonempty burst started
  have fbytes : u.fbytes = s.fbytes := by simp only [fbytes_eq, n, cfg]
  rw [← fbytes] at nonempty lengths
  subst eq
  obtain ⟨streamed, done⟩ := streaming_streamFrames start mode nonempty burst lengths
  rw [← cfg, ← n]
  refine ⟨streamed.st, streamed.fno, streamed.evt, done, fun fits j c i frame hj hc hi => ?_⟩
  have held := holdsFrame_streamFrames start mode nonempty burst lengths fits hj
  rw [State.HoldsFrame, streamed.same.n, streamed.same.cfg] at held
  exact held c i hc hi

end Sys2Proof.Machine
end

section
/-! A host operation at its port is rejected, or shows no reject code (60_exceptions.md R222); and in `HALT`
it leaves the registers, the memories and the session as they are (60_exceptions.md R231, R233). One lemma,
`runHostOp_cases`, says both. -/

namespace Sys2Proof.Machine

/-- The operations the model can reject (notes/assumptions/3.md and 27.md). -/
def HostOp.Rejectable (op : HostOp) : Prop :=
  (∃ v, op = .cfg v) ∨ (∃ a, op = .startBulk a) ∨ (∃ a, op = .startCont a) ∨ op = .pull ∨ op = .cancel

/-- `t` is `s` but for the pulses, the host's lists and the counter of free values: every register, `TX`,
`OUT` and the session's bytes stand. -/
def Stands (s t : State) : Prop :=
  ∃ out host call freeCtr, t = { s with out := out, host := host, call := call, freeCtr := freeCtr }

/-- What an operation that can be rejected does: it is rejected, or accepted, and then not in `HALT`. -/
def RejectedOrAccepted (s t : State) : Prop :=
  t = s.reject t.out.rejCode ∨ (s.st ≠ .halt ∧ t.out.rejCode = s.out.rejCode)

/-- What any other operation does: it shows no reject code, and in `HALT` the block stands. -/
def Unrejected (s t : State) : Prop := t.out.rejCode = s.out.rejCode ∧ (s.st = .halt → Stands s t)

theorem Stands.refl (s : State) : Stands s s := ⟨s.out, s.host, s.call, s.freeCtr, rfl⟩

theorem stands_reject (s : State) (r : RejCode) : Stands s (s.reject r) :=
  ⟨_, s.host, s.call, s.freeCtr, rfl⟩

/-- `Stands` speaks of neither of the host's lists. -/
theorem Stands.of_host {s t : State} {host call : List HostOp}
    (h : Stands { s with host := host, call := call } t) : Stands s t := by
  obtain ⟨out, host', call', freeCtr, rfl⟩ := h
  exact ⟨out, host', call', freeCtr, rfl⟩

/-! ## The operations that can be rejected -/

theorem rejectedOrAccepted_afpCfg (v : Nat) (s : State) : RejectedOrAccepted s (afpCfg v s) := by
  rcases afpCfg_cases v s with ⟨st, _, eq⟩ | ⟨_, eq⟩ <;> rw [eq]
  · exact .inr ⟨by simp [st], rfl⟩
  · exact .inl rfl

theorem rejectedOrAccepted_afpStartBulk (a : Count) (s : State) :
    RejectedOrAccepted s (afpStartBulk a s) := by
  rcases afpStartBulk_cases a s with ⟨st, _, _, eq⟩ | ⟨_, eq⟩ <;> rw [eq]
  · exact .inr ⟨by simp [st], rfl⟩
  · exact .inl rfl

theorem rejectedOrAccepted_afpStartCont (a : Count) (s : State) :
    RejectedOrAccepted s (afpStartCont a s) := by
  rcases afpStartCont_cases a s with ⟨st, _, _, _, eq⟩ | ⟨_, eq⟩ <;> rw [eq]
  · exact .inr ⟨by simp [st], rfl⟩
  · exact .inl rfl

theorem rejectedOrAccepted_afpPull (s : State) : RejectedOrAccepted s (afpPull s) := by
  rcases afpPull_cases s with ⟨st, _, eq⟩ | ⟨st, _, eq⟩ | ⟨_, eq⟩ <;> rw [eq]
  · exact .inr ⟨by simp [st], rfl⟩
  · exact .inr ⟨by simp [st], rfl⟩
  · exact .inl rfl

theorem rejectedOrAccepted_afpCancel (s : State) : RejectedOrAccepted s (afpCancel s) := by
  rcases afpCancel_cases s with ⟨notHalt, eq⟩ | ⟨_, eq⟩ <;> rw [eq]
  · exact .inr ⟨notHalt, rfl⟩
  · exact .inl rfl

/-! ## The other operations -/

/-- The outputs may change but for the reject code, and the bookkeeping of a call with them. -/
theorem unrejected_of_outputs {s : State} {out : Outputs} {call : List HostOp} {freeCtr : Nat}
    (rejCode : out.rejCode = s.out.rejCode) :
    Unrejected s { s with out := out, call := call, freeCtr := freeCtr } :=
  ⟨rejCode, fun _ => ⟨_, s.host, _, _, rfl⟩⟩

theorem unrejected_sendCommand {code : Code} {sub : SubIx} {operand : Int} {s t : State}
    (h : sendCommand code sub operand s = .next t) : Unrejected s t := by
  rw [sendCommand_eq_cweSend] at h
  rcases cweSend_cases h with ⟨idle, rfl⟩ | ⟨_, rfl⟩
  · exact ⟨rfl, fun halt => by simp [idle] at halt⟩
  · exact unrejected_of_outputs rfl

theorem unrejected_consumerRead {f c i : Nat} {s t : State} (h : consumerRead f c i s = .next t) :
    Unrejected s t := by
  rcases consumerRead_cases f c i s with ⟨_, _, _, eq⟩ | ⟨_, _, eq⟩ | ⟨_, eq⟩ <;> rw [eq] at h <;> cases h
  · exact unrejected_of_outputs rfl
  · exact unrejected_of_outputs rfl

theorem unrejected_runExpansion (e : Except CallerError (List HostOp)) (s : State) :
    Unrejected s (runExpansion e s) := by
  cases e <;> exact unrejected_of_outputs rfl

theorem unrejected_endAwaitBatch (s : State) : Unrejected s (endAwaitBatch s) := by
  unfold endAwaitBatch
  repeat' split
  all_goals exact unrejected_of_outputs rfl

theorem unrejected_endAwaitFrame (s : State) : Unrejected s (endAwaitFrame s) := by
  unfold endAwaitFrame
  split <;> exact unrejected_of_outputs rfl

/-- What a host operation at its port can do, said once: it is one of those that can be rejected, or it
shows no reject code. -/
theorem runHostOp_cases {op : HostOp} {s t : State} (h : runHostOp op s = .next t) :
    (op.Rejectable ∧ RejectedOrAccepted s t) ∨ Unrejected s t := by
  cases op <;> simp only [runHostOp, Host.Outcome.next.injEq] at h
  case send => exact .inr (unrejected_sendCommand h)
  case read => exact .inr (unrejected_consumerRead h)
  all_goals subst h
  case cfg v => exact .inl ⟨.inl ⟨v, rfl⟩, rejectedOrAccepted_afpCfg v s⟩
  case startBulk a => exact .inl ⟨.inr (.inl ⟨a, rfl⟩), rejectedOrAccepted_afpStartBulk a s⟩
  case startCont a => exact .inl ⟨.inr (.inr (.inl ⟨a, rfl⟩)), rejectedOrAccepted_afpStartCont a s⟩
  case pull => exact .inl ⟨.inr (.inr (.inr (.inl rfl))), rejectedOrAccepted_afpPull s⟩
  case cancel => exact .inl ⟨.inr (.inr (.inr (.inr rfl))), rejectedOrAccepted_afpCancel s⟩
  case encode => exact .inr (unrejected_of_outputs rfl)
  case awaitBatch => exact .inr (unrejected_endAwaitBatch s)
  case awaitFrame => exact .inr (unrejected_endAwaitFrame s)
  all_goals exact .inr (unrejected_runExpansion _ s)

/-- Settles O37: the step starts with the pulses low, so a code that shows is that of a reject. -/
theorem rejectsChangeNothing : Obligations.RejectsChangeNothing := by
  intro s t rest op sched hstep shown
  rw [step_of_strobe sched] at hstep
  rcases runHostOp_cases hstep with ⟨rejectable, rejected | ⟨_, rejCode⟩⟩ | ⟨rejCode, _⟩
  · exact ⟨rejectable, rejected⟩
  · exact absurd rejCode shown
  · exact absurd rejCode shown

end Sys2Proof.Machine
end

section
/-! In `HALT` every turn but `RESET` leaves the block as it stands (60_exceptions.md R231, R233; 10_state.md
R43): of the turns only an arrival of bytes touches the session, and only a clock cycle the turns to come. -/

namespace Sys2Proof.Machine

/-! ## Operations in `HALT` -/

theorem stands_runHostOp {op : HostOp} {s t : State} (halt : s.st = .halt)
    (h : runHostOp op s = .next t) : Stands s t := by
  rcases runHostOp_cases h with ⟨_, rejected | ⟨notHalt, _⟩⟩ | ⟨_, stands⟩
  · rw [rejected]; exact stands_reject s _
  · exact absurd halt notHalt
  · exact stands halt

theorem stands_tryHostOp {op : HostOp} {s t : State} {host call : List HostOp} (halt : s.st = .halt)
    (h : tryHostOp op s { s with host := host, call := call } = .next t) : Stands s t := by
  rcases tryHostOp_cases h with ⟨_, ho⟩ | ⟨_, ho⟩
  · cases ho
    rcases offerOp_cases op s with ⟨_, _, _, _, eq⟩ | eq <;> rw [eq]
    · exact ⟨_, s.host, s.call, s.freeCtr, rfl⟩
    · exact .refl s
  · exact (stands_runHostOp (s := { s with host := host, call := call }) halt ho.symm).of_host

theorem stands_hostTurn {s t : State} (halt : s.st = .halt) (h : hostTurn s = .next t) : Stands s t := by
  rcases hostTurn_cases h with ⟨_, _, ho⟩ | ⟨_, _, _, _, ho⟩ | ⟨_, _, _, _, ho⟩ | ⟨_, _, _, _, ho⟩
  · cases ho; exact .refl s
  · cases ho; exact ⟨_, s.host, [], s.freeCtr, rfl⟩
  · exact stands_tryHostOp (host := s.host) halt ho.symm
  · exact stands_tryHostOp (call := s.call) halt ho.symm

section
variable {s : State} (halt : s.st = .halt)
include halt

theorem afpIssue_of_halt : afpIssue s = s := if_neg (by simp [halt])

theorem deviceTurn_of_halt : deviceTurn s = s := deviceTurn_of_not_rx (by simp [halt])

theorem afpRxErr_of_halt : afpRxErr s = s := if_neg (by simp [halt])

theorem afpTxErr_of_halt : afpTxErr s = s := if_neg (by simp [halt])

theorem txErrTurn_of_halt : txErrTurn s = s :=
  (txErrTurn_of_not_idle (by simp [halt])).trans (afpTxErr_of_halt halt)

theorem txErrWith_of_halt (offered : Bool) : txErrWith offered s = s := by
  simp [txErrWith, State.hostCmdReady, halt, afpTxErr_of_halt]

theorem transferTurn_of_halt (p : PortInputs) : transferTurn p s = .next s := by
  simp only [transferTurn, halt]

/-- What a turn does in `HALT`, but for the three that are the session's or the model's own affair. -/
theorem stands_takeTurn {turn : Turn} {t : State} (h : takeTurn turn s = .next t)
    (notReset : turn ≠ .rst) (notArrival : ∀ bytes, turn ≠ .arrive bytes)
    (notCycle : ∀ p, turn ≠ .clock p) : Stands s t := by
  cases turn
  case rst => exact absurd rfl notReset
  case arrive bytes => exact absurd rfl (notArrival bytes)
  case clock p => exact absurd rfl (notCycle p)
  case host => exact stands_hostTurn halt h
  case strobe => exact stands_runHostOp halt h
  all_goals
    simp only [takeTurn, afpIssue_of_halt halt, deviceTurn_of_halt halt, afpRxErr_of_halt halt,
      txErrTurn_of_halt halt, txErrWith_of_halt halt, transferTurn_of_halt halt,
      Host.Outcome.next.injEq] at h
    subst h
    exact .refl s

end

/-! ## The step in `HALT` -/

/-- The first step of a clock cycle shows the encoder's word and puts the cycle's turns in front. -/
def State.inCycle (s : State) (p : PortInputs) (rest : List Turn) : State :=
  showPorts p { s.took rest with sched := clockTurns p ++ rest }

theorem step_of_clock {s : State} {rest : List Turn} {p : PortInputs} (sched : s.sched = .clock p :: rest) :
    step s = .next (s.inCycle p rest) :=
  step_of_sched_cons sched

/-- The first step of a cycle writes the outputs and the turns to come only. -/
theorem inCycle_eq (s : State) (p : PortInputs) (rest : List Turn) :
    s.inCycle p rest = { s with out := (s.inCycle p rest).out, sched := clockTurns p ++ rest } := by
  unfold State.inCycle showPorts
  split <;> rfl

/-- What a step in `HALT` can do, said once: it resets, or writes no more than the outputs, the lists of the
agents and the counter of free values, and behind the session's bytes those that arrive. -/
theorem step_of_halt {s t : State} (halt : s.st = .halt) (h : step s = .next t) :
    (∃ rest, s.sched = .rst :: rest ∧ t = (s.took rest).resetBlock) ∨
    ∃ out sched host call freeCtr rxq,
      t = { s with
        out := out, sched := sched, host := host, call := call, freeCtr := freeCtr, rxq := rxq } ∧
      (rxq = s.rxq ∨ ∃ bytes rest, s.sched = .arrive bytes :: rest ∧ rxq = s.rxq ++ bytes) := by
  cases sched : s.sched with
  | nil =>
    cases (step_of_sched_nil sched).symm.trans h
    exact .inr ⟨_, _, _, _, _, _, rfl, .inl rfl⟩
  | cons turn rest =>
    have turned : takeTurn turn (s.took rest) = .next t := (step_of_sched_cons sched).symm.trans h
    cases turn
    case rst =>
      cases turned
      exact .inl ⟨rest, rfl, rfl⟩
    case arrive bytes =>
      cases turned
      exact .inr ⟨_, _, _, _, _, _, rfl, .inr ⟨bytes, rest, rfl, rfl⟩⟩
    case clock p =>
      cases turned
      exact .inr ⟨_, _, s.host, s.call, s.freeCtr, s.rxq, inCycle_eq s p rest, .inl rfl⟩
    all_goals
      have stands := stands_takeTurn (s := s.took rest) halt turned nofun (fun _ => nofun) fun _ => nofun
      obtain ⟨_, _, _, _, rfl⟩ := stands
      exact .inr ⟨_, _, _, _, _, _, rfl, .inl rfl⟩

/-- Settles O38: the two cases of `step_of_halt`. -/
theorem onlyResetLeavesHalt : Obligations.OnlyResetLeavesHalt := by
  intro s t halt hstep
  rcases step_of_halt halt hstep with ⟨rest, sched, rfl⟩ | ⟨_, _, _, _, _, _, rfl, bytes⟩
  · exact .inr ⟨rest, sched, rfl, rfl, rfl⟩
  · exact .inl ⟨halt, rfl, rfl, rfl, rfl, rfl, rfl, rfl, rfl, rfl, rfl, rfl, rfl, bytes⟩

end Sys2Proof.Machine
end

section
/-! One clock cycle (60_exceptions.md R228): the first step puts the cycle's turns in front, and each turn is
then a step. Once a cancel or an error has halted the block, the rest of the cycle's turns, its transfer
among them, leave it as it stands. -/

namespace Sys2Proof.Machine

/-! ## Turn after turn -/

/-- The first step of a cycle leaves nothing that its second step reads but the turns. -/
theorem took_inCycle (s : State) (p : PortInputs) (rest after : List Turn) :
    (s.inCycle p rest).took after = s.took after := by
  rw [inCycle_eq]
  rfl

/-- The second step of a cycle takes the first of its turns. -/
theorem step_inCycle {s : State} {p : PortInputs} {turn : Turn} {rest after : List Turn}
    (turns : clockTurns p ++ rest = turn :: after) :
    step (s.inCycle p rest) = takeTurn turn (s.took after) := by
  have sched : (s.inCycle p rest).sched = turn :: after := by rw [inCycle_eq]; exact turns
  rw [← took_inCycle s p rest after]
  exact step_of_sched_cons sched

theorem run_two_of_clock {s : State} {p : PortInputs} {turn : Turn} {rest after : List Turn}
    (sched : s.sched = .clock p :: rest) (turns : clockTurns p ++ rest = turn :: after) :
    core.run 2 s = takeTurn turn (s.took after) := by
  rw [run_succ_of_next (step_of_clock sched), run_one, step_inCycle turns]

/-- The operations of `cfg_we`, `start_we` and `pull`, in the order of points 5 to 7. -/
def operationTurns (p : PortInputs) : List Turn :=
  (if p.cfgWe then [.strobe (.cfg p.cfgN)] else []) ++ (if p.startWe then [.strobe (startOp p)] else []) ++
    (if p.pull then [.strobe .pull] else [])

theorem clockTurns_of_rst {p : PortInputs} (reset : p.rst = true) : clockTurns p = [.rst] := if_pos reset

theorem clockTurns_of_no_rst {p : PortInputs} (noReset : p.rst = false) :
    clockTurns p =
      (if p.cancel then [.strobe .cancel] else []) ++ ((if p.rxErr then [.rxErr] else []) ++
        ((if p.txErr then [.txErrPort p.inValid] else []) ++ .transfer p :: operationTurns p)) := by
  simp [clockTurns, operationTurns, noReset]

theorem startOp_rejectable (p : PortInputs) : (startOp p).Rejectable := by
  unfold startOp
  split
  · exact .inr (.inl ⟨_, rfl⟩)
  · exact .inr (.inr (.inl ⟨_, rfl⟩))

theorem mem_operationTurns {p : PortInputs} {turn : Turn} (mem : turn ∈ operationTurns p) :
    ∃ op : HostOp, op.Rejectable ∧ turn = .strobe op := by
  simp only [operationTurns, List.mem_append, List.mem_ite_nil_right, List.mem_singleton] at mem
  rcases mem with (⟨_, rfl⟩ | ⟨_, rfl⟩) | ⟨_, rfl⟩
  · exact ⟨_, .inl ⟨_, rfl⟩, rfl⟩
  · exact ⟨_, startOp_rejectable p, rfl⟩
  · exact ⟨_, .inr (.inr (.inr (.inl rfl))), rfl⟩

theorem mem_clockTurns {p : PortInputs} (noReset : p.rst = false) {turn : Turn} (mem : turn ∈ clockTurns p) :
    turn = .rxErr ∨ turn = .txErrPort p.inValid ∨ turn = .transfer p ∨
      ∃ op : HostOp, op.Rejectable ∧ turn = .strobe op := by
  simp only [clockTurns_of_no_rst noReset, List.mem_append, List.mem_cons, List.mem_ite_nil_right,
    List.not_mem_nil, or_false] at mem
  rcases mem with ⟨_, rfl⟩ | ⟨_, rfl⟩ | ⟨_, rfl⟩ | rfl | mem
  · exact .inr (.inr (.inr ⟨.cancel, .inr (.inr (.inr (.inr rfl))), rfl⟩))
  · exact .inl rfl
  · exact .inr (.inl rfl)
  · exact .inr (.inr (.inl rfl))
  · exact .inr (.inr (.inr (mem_operationTurns mem)))

/-! ## The rest of a halted cycle -/

theorem runHostOp_next_of_rejectable {op : HostOp} (rejectable : op.Rejectable) (s : State) :
    ∃ t, runHostOp op s = .next t := by
  rcases rejectable with ⟨_, rfl⟩ | ⟨_, rfl⟩ | ⟨_, rfl⟩ | rfl | rfl <;> exact ⟨_, rfl⟩

/-- Of the turns of a cycle without `rst`, each leaves a halted block as it stands. -/
theorem takeTurn_of_cycle_of_halt {p : PortInputs} (noReset : p.rst = false) {turn : Turn}
    (mem : turn ∈ clockTurns p) {s : State} (halt : s.st = .halt) :
    ∃ t, takeTurn turn s = .next t ∧ Stands s t := by
  rcases mem_clockTurns noReset mem with rfl | rfl | rfl | ⟨op, rejectable, rfl⟩
  · exact ⟨s, congrArg _ (afpRxErr_of_halt halt), .refl s⟩
  · exact ⟨s, congrArg _ (txErrWith_of_halt halt p.inValid), .refl s⟩
  · exact ⟨s, transferTurn_of_halt halt p, .refl s⟩
  · obtain ⟨t, next⟩ := runHostOp_next_of_rejectable rejectable s
    exact ⟨t, next, stands_runHostOp halt next⟩

/-- A block that stands stays halted, with the same cause. -/
theorem HaltedIn.of_stands {c : Cause} {turns after : List Turn} {s t u : State} (h : HaltedIn c turns s t)
    (stands : Stands (t.took after) u) : HaltedIn c after s u := by
  obtain ⟨_, _, _, _, rfl⟩ := stands
  exact { h with sched := rfl }

theorem run_of_haltedIn {p : PortInputs} (noReset : p.rst = false) {c : Cause} {rest : List Turn}
    {s : State} (turns : List Turn) (cycle : turns ⊆ clockTurns p) {t : State}
    (h : HaltedIn c (turns ++ rest) s t) :
    ∃ u, core.run turns.length t = .next u ∧ HaltedIn c rest s u := by
  induction turns generalizing t with
  | nil => exact ⟨t, rfl, h⟩
  | cons turn turns ih =>
    obtain ⟨mem, cycle⟩ := List.cons_subset.mp cycle
    obtain ⟨v, taken, stands⟩ :=
      takeTurn_of_cycle_of_halt noReset mem (s := t.took (turns ++ rest)) h.st
    obtain ⟨u, run, halted⟩ := ih cycle (h.of_stands stands)
    exact ⟨u, (run_succ_of_next ((step_of_sched_cons h.sched).trans taken)).trans run, halted⟩

/-! ## A cycle that halts -/

/-- The turn takes a state that differs from `s` in its pulses and its turns only, and changes no more. -/
def Passes (s : State) (turn : Turn) : Prop :=
  ∀ after, takeTurn turn (s.took after) = .next (s.took after)

/-- Turns that pass are steps that leave the block to the turns after them. -/
theorem run_of_passes {s : State} {after : List Turn} (k : Nat) (turns : List Turn)
    (passes : ∀ turn ∈ turns, Passes s turn) {u : State} (sched : u.sched = turns ++ after)
    (same : ∀ after, u.took after = s.took after) :
    ∃ v, core.run (k + turns.length) u = core.run k v ∧ v.sched = after ∧
      ∀ after, v.took after = s.took after := by
  induction turns generalizing u with
  | nil => exact ⟨u, rfl, sched, same⟩
  | cons turn turns ih =>
    obtain ⟨pass, passes⟩ := List.forall_mem_cons.mp passes
    have next : step u = .next (s.took (turns ++ after)) :=
      (step_of_sched_cons sched).trans ((congrArg _ (same _)).trans (pass _))
    obtain ⟨v, run, left⟩ := ih passes (u := s.took (turns ++ after)) rfl fun _ => rfl
    exact ⟨v, (run_succ_of_next next).trans run, left⟩

/-- A cycle halts on the first of its turns that does not pass, if that one halts the block. -/
theorem run_clock_of_halting {s v : State} {p : PortInputs} {passing turns rest : List Turn} {turn : Turn}
    {c : Cause} (sched : s.sched = .clock p :: rest) (noReset : p.rst = false)
    (cycle : clockTurns p = passing ++ turn :: turns) (passes : ∀ turn ∈ passing, Passes s turn)
    (taken : takeTurn turn (s.took (turns ++ rest)) = .next v) (halted : HaltedIn c (turns ++ rest) s v) :
    ∃ t, core.run (1 + (clockTurns p).length) s = .next t ∧ HaltedIn c rest s t := by
  have inTurns : (s.inCycle p rest).sched = passing ++ turn :: (turns ++ rest) := by
    rw [inCycle_eq, cycle, List.append_assoc, List.cons_append]
  obtain ⟨u, passed, uSched, uSame⟩ :=
    run_of_passes (turns.length + 1) passing passes inTurns (took_inCycle s p rest)
  have next : step u = .next v := by
    rw [step_of_sched_cons uSched]
    exact (congrArg _ (uSame _)).trans taken
  obtain ⟨t, run, ended⟩ := run_of_haltedIn noReset turns (by simp [cycle]) halted
  refine ⟨t, ?_, ended⟩
  calc core.run (1 + (clockTurns p).length) s
    _ = core.run (turns.length + 1 + passing.length + 1) s := by
      rw [cycle, List.length_append, List.length_cons, Nat.add_comm 1, Nat.add_comm passing.length]
    _ = core.run (turns.length + 1 + passing.length) (s.inCycle p rest) :=
      run_succ_of_next (step_of_clock sched)
    _ = core.run (turns.length + 1) u := passed
    _ = core.run turns.length v := run_succ_of_next next
    _ = .next t := run

theorem haltedIn_raiseHalt (s : State) (c : Cause) (after : List Turn) :
    HaltedIn c after s ((s.took after).raiseHalt c) := by
  constructor <;> rfl

/-- Where it is noticed, the cycle's `tx_err` halts; a host command offered in `IDLE` fails with it. -/
theorem haltedIn_txErrWith {s : State} {offered : Bool} (after : List Turn)
    (noticed : s.st = .cmd ∨ (s.st = .idle ∧ offered = true)) :
    HaltedIn .ioTx after s (txErrWith offered (s.took after)) := by
  have st : (s.took after).st = s.st := rfl
  rcases noticed with cmd | ⟨idle, isOffered⟩
  · have eq : txErrWith offered (s.took after) = (s.took after).raiseHalt .ioTx := by
      simp [txErrWith, State.hostCmdReady, afpTxErr, st, cmd]
    rw [eq]
    exact haltedIn_raiseHalt s .ioTx after
  · have eq : txErrWith offered (s.took after) =
        ((s.took after).raiseHalt .ioTx).failCall .connectionError := by
      simp [txErrWith, State.hostCmdReady, cweSendFailed, st, idle, isOffered]
    rw [eq]
    exact { haltedIn_raiseHalt s .ioTx after with }

theorem afpCancel_of_not_halt {s : State} (notHalt : s.st ≠ .halt) : afpCancel s = s.raiseHalt .closed := by
  rcases afpCancel_cases s with ⟨_, eq⟩ | ⟨halt, _⟩
  · exact eq
  · exact absurd halt notHalt

theorem passes_rxErr {s : State} (notRx : s.st ≠ .rx) : Passes s .rxErr :=
  fun _ => congrArg Host.Outcome.next (if_neg notRx)

/-! ## The transfer of a cycle -/

theorem transferTurn_of_rx {p : PortInputs} {s : State} {b : Byte} {bytes : List Byte} (st : s.st = .rx)
    (valid : p.rxValid = true) (head : s.rxq = b :: bytes) :
    transferTurn p s = .next (afpRxByte b { s with rxq := bytes }) := by
  simp only [transferTurn, st, if_pos valid, deviceTurn_of_rx st head]

theorem transferTurn_of_cmd {p : PortInputs} {s : State} (st : s.st = .cmd) (ready : p.txReady = true) :
    transferTurn p s = .next (afpIssue s) := by
  simp only [transferTurn, st, if_pos ready]

/-- In `IDLE` the word of the inputs is sent (40_encoder.md R100, R103, R110). -/
theorem transferTurn_of_idle {p : PortInputs} {s : State} (st : s.st = .idle) (valid : p.inValid = true)
    (ready : p.txReady = true) : transferTurn p s = .next (s.txWord (portWord s.cfg p)) := by
  have transfer : (p.inValid && p.txReady) = true := by simp [valid, ready]
  simp only [transferTurn, st, if_pos transfer]
  rw [sendCommand_eq_cweSend, cweSend_idle _ _ _ _ st, cweEncode_toNat]
  rfl

theorem transferTurn_of_no_transfer {p : PortInputs} {s : State}
    (rx : s.st = .rx → p.rxValid = false ∨ s.rxq = []) (cmd : s.st = .cmd → p.txReady = false)
    (idle : s.st = .idle → p.inValid = false ∨ p.txReady = false) : transferTurn p s = .next s := by
  unfold transferTurn
  cases st : s.st
  case rx =>
    rcases rx st with invalid | empty
    · simp [invalid]
    · simp [deviceTurn, empty]
  case cmd => simp [cmd st]
  case idle =>
    have noTransfer : (p.inValid && p.txReady) = false := Bool.and_eq_false_iff.mpr (idle st)
    simp [noTransfer]
  case wait | halt => rfl

/-- A cycle with none of the four inputs of points 1 to 3 begins with its transfer. -/
theorem run_two_of_quiet_clock {s : State} {p : PortInputs} {rest : List Turn}
    (sched : s.sched = .clock p :: rest) (noReset : p.rst = false) (noCancel : p.cancel = false)
    (noRxErr : p.rxErr = false) (noTxErr : p.txErr = false) :
    core.run 2 s = transferTurn p (s.took (operationTurns p ++ rest)) :=
  run_two_of_clock (turn := .transfer p) sched
    (by simp [clockTurns_of_no_rst noReset, noCancel, noRxErr, noTxErr])

/-- Settles O39: the turn that halts the cycle in each of the first three cases without `rst`, the rule of
each transfer in the last. -/
theorem errorsAndCancelWinInAClockCycle : Obligations.ErrorsAndCancelWinInAClockCycle := by
  intro s rest p sched
  refine ⟨fun reset => ?reset, fun noReset cancel notHalt => ?cancel,
    fun noReset noCancel rxErr rx => ?rxErr, fun noReset noCancel txErr noticed => ?txErr,
    fun noReset noCancel noRxErr noTxErr after turns => ?transfer⟩
  case reset => exact run_two_of_clock sched (by rw [clockTurns_of_rst reset]; rfl)
  case cancel =>
    exact run_clock_of_halting (passing := []) sched noReset
      (by rw [clockTurns_of_no_rst noReset, if_pos cancel]; rfl) (List.forall_mem_nil _)
      (congrArg _ (afpCancel_of_not_halt (s := s.took _) notHalt)) (haltedIn_raiseHalt s .closed _)
  case rxErr =>
    exact run_clock_of_halting (passing := []) sched noReset
      (by rw [clockTurns_of_no_rst noReset, noCancel, if_pos rxErr]; rfl) (List.forall_mem_nil _)
      (congrArg _ (if_pos rx)) (haltedIn_raiseHalt s .ioRx _)
  case txErr =>
    have notRx : s.st ≠ .rx := by rcases noticed with cmd | ⟨idle, _⟩ <;> simp [*]
    refine run_clock_of_halting sched noReset
      (by rw [clockTurns_of_no_rst noReset, noCancel, if_pos txErr]; rfl) (fun turn mem => ?_) rfl
      (haltedIn_txErrWith _ noticed)
    obtain ⟨_, rfl⟩ : p.rxErr = true ∧ turn = .rxErr := by simpa using mem
    exact passes_rxErr notRx
  case transfer =>
    have operations : after = operationTurns p ++ rest := by
      rw [turns]
      unfold operationTurns startOp
      cases p.startMode <;> rfl
    rw [run_two_of_quiet_clock sched noReset noCancel noRxErr noTxErr, ← operations]
    refine ⟨fun b bytes st valid head => ?_, fun st ready => ?_, fun st valid ready => ?_,
      fun rx cmd idle => ?_⟩
    · exact transferTurn_of_rx (s := s.took after) st valid head
    · exact transferTurn_of_cmd (s := s.took after) st ready
    · exact ⟨_, rfl, transferTurn_of_idle (s := s.took after) st valid ready⟩
    · exact transferTurn_of_no_transfer (s := s.took after) rx cmd idle

end Sys2Proof.Machine
end
